-- ==== Sys2Proof/Word.lean ====
section
/-!
DEFINITION. The words TCON works on: command words, bytes and character cells (spec/00_scope.md R8; no value is signed).
-/

namespace Sys2Proof

/-- A byte: a put_char byte, a font row, an attribute (R8, R50). -/
abbrev Byte := BitVec 8

/-- A character cell: the code in bits 7:0, the attribute in bits 15:8 (R34, R35). -/
abbrev CharCell := BitVec 16

/-- The 12-bit command word CW (R62). -/
abbrev CmdWord := BitVec 12

end Sys2Proof
end

