-- ==== Sys2Proof/Config.lean ====
section
/-!
DEFINITION. What is fixed for one TCON: the literals the spec takes as normative (spec/00_scope.md R5), the parameters it leaves
open (R6), and the free values it calls draws (R9, R44, R105).
An open parameter is an opaque constant, so no proof can see it. The geometry is built from opaque numbers so that R6's
constraints hold of it and nothing else does (Laws/Config.lean). Log entries 5, 7, 8, 11 and 15.
-/

namespace Sys2Proof.Config

/-! ### The literals of R5 -/

/-- ROW_CELLS: the cells of one row (R5, R34). -/
abbrev rowCells : Nat := 128

/-- The number of display registers, r = 0..30 (R23). -/
abbrev regCount : Nat := 31

/-- GLYPHS × FONT_ROWS bytes of font memory (R5, R37). -/
abbrev fontBytes : Nat := 2048

/-- FONT_ROWS: rows of one glyph in the font memory (R5, R37). -/
abbrev fontRows : Nat := 16

/-- ROM_ROWS: rows of one glyph in the ROM (R5, R40). -/
abbrev romRows : Nat := 12

/-- The block glyph's code, the last of the 128 (R40, R101). -/
abbrev blockGlyph : Nat := 127

/-- STATUS_ROWS × ROW_CELLS: the status bar covers rows 0..31 (R5, R103). -/
abbrev statusCells : Nat := 4096

/-- Where zone 1 of a status-bar row ends (R5, R104). -/
abbrev statusZ1End : Nat := 108

/-- Where zone 2 of a status-bar row ends (R5, R104). -/
abbrev statusZ2End : Nat := 118

/-- STATUS_Z3_CHAR: the character code of zone 3 (R5, R104). -/
def statusZ3Char : Byte := 0x80#8

/-- BLANK: a space with attribute BLANK_ATTR = 0x8F (R5, R75). -/
def blank : CharCell := 0x8F20#16

/-- What `PRINT_ATTR` adds to a printed byte (R5, R83). -/
def printAttr : CharCell := 0x0F00#16

/-- MODE_STATUS, entered at INIT step 8 (R5, R103). -/
abbrev modeStatus : Nat := 2

/-- MODE_ACTIVE, entered at INIT step 10 (R5, R106). -/
abbrev modeActive : Nat := 1

/-! ### The geometry of R6

The shapes take the opaque numbers to a geometry that meets R6's constraints; every geometry that meets them is reached. -/

/-- GRID_START from a row number: a multiple of 128. -/
def gridStartOf (startRow : Nat) : Nat := startRow * 128

/-- CAP: a multiple of 128, at least one row above GRID_START. -/
def capOf (startRow moreRows : Nat) : Nat := (startRow + moreRows) * 128 + 128

/-- CHARBUF_CELLS: `more` beyond max(CAP, STATUS_ROWS × 128); the last 2 stand apart so that indexes 0 and 1 compare by evaluation. -/
def charbufCellsOf (cap more : Nat) : Nat := more + (max cap 4096 - 2) + 2

/-- REG_W: at least 8, and wide enough that 2^REG_W > CAP / 128. -/
def regWOf (cap more : Nat) : Nat := max 8 (Nat.log2 (cap / 128) + 1) + more

/-- FB_WORDS: at least 1. -/
def fbWordsOf (more : Nat) : Nat := more + 1

/-- GRID_START / 128, open (R6). -/
opaque gridStartRow : Nat

/-- How many rows the grid has beyond its first, open (R6). -/
opaque gridMoreRows : Nat

/-- How many cells the character buffer has beyond its least size, open (R6). -/
opaque charbufMore : Nat

/-- How many bits a register has beyond its least width, open (R6). -/
opaque regWMore : Nat

/-- How many words the framebuffer has beyond its first, open (R6). -/
opaque fbWordsMore : Nat

/-- GRID_START, the first cell of the console grid (R6, R36). -/
def gridStart : Nat := gridStartOf gridStartRow

/-- CAP, the first index past the console grid (R6, R36). -/
def cap : Nat := capOf gridStartRow gridMoreRows

/-- CHARBUF_CELLS, the cells of the character buffer (R6, R34). -/
def charbufCells : Nat := charbufCellsOf cap charbufMore

/-- REG_W, the width of every display register (R6, R25). -/
def regW : Nat := regWOf cap regWMore

/-- FB_WORDS, the words of the framebuffer (R6, R39). -/
def fbWords : Nat := fbWordsOf fbWordsMore

/-- FB_W, the width of a framebuffer word (R6, R39). -/
opaque fbW : Nat

end Sys2Proof.Config

namespace Sys2Proof

/-- A display register's value (R25). -/
abbrev RegWord := BitVec Config.regW

/-- A framebuffer word (R39). -/
abbrev FbWord := BitVec Config.fbW

/-- A display register's number r (R23); the type has no number 31 or above. -/
abbrev Reg := Fin Config.regCount

end Sys2Proof

namespace Sys2Proof.Config

/-! ### What INIT writes (R6, R7) -/

/-- GLYPH_ROM(c, r), the glyph ROM's rows (R40). -/
opaque glyphRom : Nat → Nat → Byte

/-- CURSV_INIT (R26, R96). -/
opaque cursvInit : RegWord

/-- HSTART_INIT (R97). -/
opaque hstartInit : RegWord

/-- HSYN_INIT (R97). -/
opaque hsynInit : RegWord

/-- HSTOP_INIT (R97). -/
opaque hstopInit : RegWord

/-- VSTART_INIT (R97). -/
opaque vstartInit : RegWord

/-- VSTOP_INIT (R97). -/
opaque vstopInit : RegWord

/-- PSTART_INIT (R98). -/
opaque pstartInit : RegWord

/-- PSTOP_INIT (R98). -/
opaque pstopInit : RegWord

/-- XSCALE_INIT (R98). -/
opaque xscaleInit : RegWord

/-- YSCALE_INIT (R98). -/
opaque yscaleInit : RegWord

/-- FLIMIT_INIT; the likely value 64 is not imposed (R7, R98). -/
opaque flimitInit : RegWord

/-- PALETTE_INIT(i) for i in 0..15 (R99). -/
opaque paletteInit : Nat → RegWord

/-- STATUS_Z1(row), a zone 1 cell (R104). -/
opaque statusZ1 : Nat → CharCell

/-- STATUS_Z2, a zone 2 cell, the same in every row (R104). -/
opaque statusZ2 : CharCell

/-- STATUS_Z3ATTR(row), the attribute of a zone 3 cell (R104). -/
opaque statusZ3Attr : Nat → Byte

/-! ### The draws (R9: "an unconstrained value the model takes as a free input")

A reset draw takes the number of the reset, so that two resets draw independently (R44, R141). -/

/-- What `cursor` holds after reset number n (R44). -/
opaque cursorDraw : Nat → Nat

/-- What `REGP[r]` holds after reset number n (R44). -/
opaque regpDraw : Nat → Reg → RegWord

/-- What `REGA[r]` holds after reset number n (R44). -/
opaque regaDraw : Nat → Reg → RegWord

/-- What `CB[i]` holds after reset number n (R44, R111). -/
opaque cbDraw : Nat → Nat → CharCell

/-- What `FONT[a]` holds after reset number n (R44). -/
opaque fontDraw : Nat → Nat → Byte

/-- What `FB[i]` holds after reset number n (R44). -/
opaque fbDraw : Nat → Nat → FbWord

/-- What the n-th logo step leaves in `FB[i]` (R105). -/
opaque logoDraw : Nat → Nat → FbWord

/-! ### The platform's addresses (R46, R52): no command uses them

Machine/Operands.lean takes these four numbers for the bases when the four regions are then disjoint (R6). -/

/-- What BASE_CHAR is drawn from (R46). -/
opaque someBaseChar : Nat

/-- What BASE_REG is drawn from (R46). -/
opaque someBaseReg : Nat

/-- What BASE_FONT is drawn from (R46). -/
opaque someBaseFont : Nat

/-- What BASE_FB is drawn from (R46). -/
opaque someBaseFb : Nat

/-- REG_OFFSET(r) is this permutation's value at r. R6 asks only that REG_OFFSET is injective, and every injective choice for the
31 registers extends to a permutation of the naturals. -/
opaque regOffsetPerm : Equiv.Perm Nat

end Sys2Proof.Config
end

