-- ==== Sys2Proof/Syntax.lean ====
section
/-!
DEFINITION. TCON's commands as syntax: the spaces, the command as the HOST issues it, and `Instr`, one constructor for each row of
spec/opcode_table.json (spec/20_memory.md R45, spec/30_encoding.md R62 to R67).
-/

namespace Sys2Proof

/-- The six spaces of R45: four memories by element index, and the two command ports. -/
inductive Space where
  | char
  | reg
  | font
  | fb
  | con
  | ctl
  deriving DecidableEq, Repr

/-- A command as issued (R62): the command word and, beside it, the operands IDX and DATA. A command whose format takes no IDX or
no DATA (R63) does not look at that field. -/
structure Command where
  cw   : CmdWord
  idx  : Nat
  data : Nat
  deriving DecidableEq, Repr

/-- The 14 commands of the opcode table (R66, R67). IDX is an unscaled natural (R64); DATA has its space's element width (R65). -/
inductive Instr where
  | rdChar (idx : Nat)
  | wrChar (idx : Nat) (data : CharCell)
  | rdReg (idx : Nat)
  | wrReg (idx : Nat) (data : RegWord)
  | rdFont (idx : Nat)
  | wrFont (idx : Nat) (data : Byte)
  | rdFb (idx : Nat)
  | wrFb (idx : Nat) (data : FbWord)
  | putcBs
  | putcDel
  | putcCr
  | putcLf
  | putcPrint (b : Byte)
  | init
  deriving DecidableEq, Repr

end Sys2Proof
end

