-- ==== Sys2Proof/WellFormed.lean ====
section
/-!
DEFINITION. Which terms of `Instr` are commands of the spec: PUTC.PRINT takes the 252 bytes that are no control code of R67. An index
outside its space is no fault of form: it is a fault of the performed command (spec/30_encoding.md R70).
-/

namespace Sys2Proof

/-- The byte is one of the 252 that PUTC.PRINT covers (R67, R83). -/
def Byte.printable (b : Byte) : Bool :=
  b != 0x08#8 && b != 0x7F#8 && b != 0x0D#8 && b != 0x0A#8

/-- The check on an instruction's fields (R67). -/
def Instr.wellFormed : Instr → Bool
  | .rdChar _ => true
  | .wrChar _ _ => true
  | .rdReg _ => true
  | .wrReg _ _ => true
  | .rdFont _ => true
  | .wrFont _ _ => true
  | .rdFb _ => true
  | .wrFb _ _ => true
  | .putcBs => true
  | .putcDel => true
  | .putcCr => true
  | .putcLf => true
  | .putcPrint b => Byte.printable b
  | .init => true

end Sys2Proof
end

