-- ==== Sys2Proof/Decode.lean ====
section
/-!
DEFINITION. Decoding a command (spec/30_encoding.md R68), total on every 12-bit command word and rejecting by name (R69); the encoder; the
opcode table of R74; and the host's numbering of a command's bits.
-/

namespace Sys2Proof

/-- Why a command word is ILLEGAL: the four cases (a) to (d) of R69. -/
inductive Illegal where
  /-- (a) SP = 6 or 7. -/
  | reservedSpace
  /-- (b) SP in 0..3 with B ≠ 0x00. -/
  | memoryByte
  /-- (c) SP = 4 with W = 0: the console port cannot be read. -/
  | consoleRead
  /-- (d) SP = 5 with W = 0, or with B ≠ 0x00. -/
  | controlForm
  deriving DecidableEq, Repr

/-- What decoding answers (R68). -/
inductive Decoded where
  | ok (i : Instr)
  | illegal (why : Illegal)
  deriving DecidableEq, Repr

/-- CW[11:9] (R62). -/
def spField (cw : CmdWord) : BitVec 3 := cw.extractLsb' 9 3

/-- CW[8] (R62): set for a write or a command. -/
def wField (cw : CmdWord) : Bool := cw.getLsbD 8

/-- CW[7:0] (R62). -/
def bField (cw : CmdWord) : Byte := cw.extractLsb' 0 8

/-- The space a code names (R62); codes 6 and 7 are reserved. -/
def spaceOfCode (sp : BitVec 3) : Option Space :=
  match sp.toNat with
  | 0 => some .char
  | 1 => some .reg
  | 2 => some .font
  | 3 => some .fb
  | 4 => some .con
  | 5 => some .ctl
  | _ => none

/-- An M-format word: B must be 0x00, and W chooses the write (R63, R66). -/
def decodeMemory (cw : CmdWord) (rd wr : Instr) : Decoded :=
  if bField cw = 0x00#8 then .ok (if wField cw then wr else rd) else .illegal .memoryByte

/-- The put_char class of a byte: the four exact codes first, then PUTC.PRINT (R67). -/
def decodePutc (b : Byte) : Instr :=
  if b = 0x08#8 then .putcBs
  else if b = 0x7F#8 then .putcDel
  else if b = 0x0D#8 then .putcCr
  else if b = 0x0A#8 then .putcLf
  else .putcPrint b

/-- The decoding function of R68. DATA is cut to its space's width (R11, R65). -/
def decode (c : Command) : Decoded :=
  match spaceOfCode (spField c.cw) with
  | some .char => decodeMemory c.cw (.rdChar c.idx) (.wrChar c.idx (BitVec.ofNat 16 c.data))
  | some .reg => decodeMemory c.cw (.rdReg c.idx) (.wrReg c.idx (BitVec.ofNat Config.regW c.data))
  | some .font => decodeMemory c.cw (.rdFont c.idx) (.wrFont c.idx (BitVec.ofNat 8 c.data))
  | some .fb => decodeMemory c.cw (.rdFb c.idx) (.wrFb c.idx (BitVec.ofNat Config.fbW c.data))
  | some .con => if wField c.cw then .ok (decodePutc (bField c.cw)) else .illegal .consoleRead
  | some .ctl => if wField c.cw ∧ bField c.cw = 0x00#8 then .ok .init else .illegal .controlForm
  | none => .illegal .reservedSpace

/-! ### The encoder -/

/-- A put_char command word: CW[11:8] = 0x9 and the byte (R67). -/
def putcWord (b : Byte) : CmdWord := 0x9#4 ++ b

/-- The command of an instruction, from the words of R66 and R67. -/
def encode : Instr → Command
  | .rdChar i => ⟨0x000#12, i, 0⟩
  | .wrChar i d => ⟨0x100#12, i, d.toNat⟩
  | .rdReg i => ⟨0x200#12, i, 0⟩
  | .wrReg i d => ⟨0x300#12, i, d.toNat⟩
  | .rdFont i => ⟨0x400#12, i, 0⟩
  | .wrFont i d => ⟨0x500#12, i, d.toNat⟩
  | .rdFb i => ⟨0x600#12, i, 0⟩
  | .wrFb i d => ⟨0x700#12, i, d.toNat⟩
  | .putcBs => ⟨0x908#12, 0, 0⟩
  | .putcDel => ⟨0x97F#12, 0, 0⟩
  | .putcCr => ⟨0x90D#12, 0, 0⟩
  | .putcLf => ⟨0x90A#12, 0, 0⟩
  | .putcPrint b => ⟨putcWord b, 0, 0⟩
  | .init => ⟨0xB00#12, 0, 0⟩

/-! ### The opcode table (R74) -/

/-- One row of the table: a word matches when it agrees with `pattern` under `mask` and is not excluded. -/
structure TableRow where
  mnemonic : String
  pattern  : CmdWord
  mask     : CmdWord
  excludes : List CmdWord
  deriving DecidableEq, Repr

/-- The word is one of the row's (R74). -/
def TableRow.matchesWord (row : TableRow) (cw : CmdWord) : Bool :=
  (cw &&& row.mask == row.pattern) && !row.excludes.contains cw

/-- The 14 rows of spec/opcode_table.json. -/
def opcodeTable : List TableRow :=
  [ ⟨"RD.CHAR", 0x000#12, 0xFFF#12, []⟩,
    ⟨"WR.CHAR", 0x100#12, 0xFFF#12, []⟩,
    ⟨"RD.REG", 0x200#12, 0xFFF#12, []⟩,
    ⟨"WR.REG", 0x300#12, 0xFFF#12, []⟩,
    ⟨"RD.FONT", 0x400#12, 0xFFF#12, []⟩,
    ⟨"WR.FONT", 0x500#12, 0xFFF#12, []⟩,
    ⟨"RD.FB", 0x600#12, 0xFFF#12, []⟩,
    ⟨"WR.FB", 0x700#12, 0xFFF#12, []⟩,
    ⟨"PUTC.BS", 0x908#12, 0xFFF#12, []⟩,
    ⟨"PUTC.DEL", 0x97F#12, 0xFFF#12, []⟩,
    ⟨"PUTC.CR", 0x90D#12, 0xFFF#12, []⟩,
    ⟨"PUTC.LF", 0x90A#12, 0xFFF#12, []⟩,
    ⟨"PUTC.PRINT", 0x900#12, 0xF00#12, [0x908#12, 0x90A#12, 0x90D#12, 0x97F#12]⟩,
    ⟨"INIT", 0xB00#12, 0xFFF#12, []⟩ ]

/-- An instruction's mnemonic in the table (R66, R67). -/
def Instr.mnemonic : Instr → String
  | .rdChar _ => "RD.CHAR"
  | .wrChar _ _ => "WR.CHAR"
  | .rdReg _ => "RD.REG"
  | .wrReg _ _ => "WR.REG"
  | .rdFont _ => "RD.FONT"
  | .wrFont _ _ => "WR.FONT"
  | .rdFb _ => "RD.FB"
  | .wrFb _ _ => "WR.FB"
  | .putcBs => "PUTC.BS"
  | .putcDel => "PUTC.DEL"
  | .putcCr => "PUTC.CR"
  | .putcLf => "PUTC.LF"
  | .putcPrint _ => "PUTC.PRINT"
  | .init => "INIT"

/-! ### The host's numbering of a command's bits

DESIGN CHOICE (log entry 1): the spec gives operands no bits. Bits 11:0 are CW, bits 15:12 fill the word up to whole bytes and are not
looked at, bits 47:16 are IDX and bits 48 up are DATA. -/

/-- The command whose bits are the low `nbits` bits of `w`, every bit above them 0. -/
def commandOfTableWord (nbits w : Nat) : Command :=
  let v := w % 2 ^ nbits
  ⟨BitVec.ofNat 12 v, v / 2 ^ 16 % 2 ^ 32, v / 2 ^ 48⟩

/-- The instruction the decoder reads from that command; none where it is ILLEGAL. -/
def decodeTableWord (nbits w : Nat) : Option Instr :=
  match decode (commandOfTableWord nbits w) with
  | .ok i => some i
  | .illegal _ => none

end Sys2Proof
end

