-- ==== Sys2Proof/Machine/State.lean ====
section
/-!
DEFINITION. TCON's state as plain data (spec/10_state.md R15), its memories in one canonical form, the reasons a step can stop, and the
state right after reset (R44). The fields `returned`, `pending`, `env`, `epoch` and `draws` are the model's own: the HOST's program,
ENV's schedule and the free values are parameters of the spec's step relation (R15), held here as data the step reads.
-/

namespace Sys2Proof.Machine

/-- The ten steps of INIT, numbered as R107 numbers them. -/
inductive InitStep where
  | s1
  | s2
  | s3
  | s4
  | s5
  | s6
  | s7
  | s8
  | s9
  | s10
  deriving DecidableEq, Repr

/-- `engine` (R20): IDLE, or STEP(k) when INIT step k is the next that ENGINE will perform. -/
inductive Engine where
  | idle
  | step (k : InitStep)
  deriving DecidableEq, Repr

/-- A fault with the information it records (R126). -/
inductive FaultInfo where
  /-- Code 1: a PUTC of byte `b` performed while `initDone` is false (R76). -/
  | useBeforeInit (b : Byte)
  /-- Code 2: an index at or above the element count of its space (R120). -/
  | badIndex (sp : Space) (idx : Nat)
  /-- Code 3: a command word of R69 (R124). -/
  | illegalCommand (cw : CmdWord)
  deriving DecidableEq, Repr

/-- Why a step answers no next state because of the machine's own state. -/
inductive Fault where
  /-- `fault` is not NONE, so HOST, ENGINE and ENV have no step (R21, R127); only reset clears it. Raised by every agent's step and by
  every meaning in such a state. Safe: it is what R127 says. -/
  | stopped (f : FaultInfo)
  deriving DecidableEq, Repr

/-- Why a step has no meaning. -/
inductive Refusal where
  /-- The instruction has no meaning yet; raised only by an arm of `exec`. Safe: nothing is claimed of it. -/
  | notModelled (mnemonic : String)
  /-- The HOST's platform access is not one whole element of space `sp`, and the spec gives it no step (R49, "it is refused"). Raised
  by the HOST's turn. Safe: nothing is claimed of it. -/
  | partialAccess (sp : Space)
  deriving DecidableEq, Repr

/-- What a read returns: a value of its space's element width (R50). -/
inductive Reply where
  | char (v : CharCell)
  | reg (v : RegWord)
  | font (v : Byte)
  | fb (v : FbWord)
  deriving DecidableEq, Repr

/-- What the HOST asks for next: a command (R62), or a platform access that is not one whole element (R49). -/
inductive HostItem where
  | command (c : Command)
  | partialAccess (sp : Space)
  deriving DecidableEq, Repr

/-- ENV's part in one step: leave the turn to the other agents, raise FRAME (R121), or the platform's reset input (R141). -/
inductive EnvTurn where
  | pass
  | frame
  | reset
  deriving DecidableEq, Repr

/-- A memory of `w`-bit elements: the listed (index, value) pairs. An index that is not listed reads as the space's reset draw. -/
abbrev Store (w : Nat) := List (Nat × BitVec w)

/-- The canonical form of a memory of `n` elements whose unlisted element i reads as `dflt i`: indexes strictly rise, lie below n, and no
entry repeats what an unlisted index reads as. -/
abbrev Store.wf {w : Nat} (dflt : Nat → BitVec w) (n : Nat) (m : Store w) : Prop :=
  m.Pairwise (fun x y => x.1 < y.1) ∧ ∀ e ∈ m, e.1 < n ∧ e.2 ≠ dflt e.1

/-- The state of TCON (R15), and below it the model's own fields. -/
structure State where
  /-- The console's cursor (R17). -/
  cursor : Nat
  /-- An INIT has completed step 10 since reset (R19). -/
  initDone : Bool
  /-- The INIT sequence's place (R20). -/
  engine : Engine
  /-- The sticky fault register; `none` is NONE (R21). -/
  fault : Option FaultInfo
  /-- REGP: the display registers as last written (R24). -/
  regp : Vector RegWord Config.regCount
  /-- REGA: the display registers in effect (R24). -/
  rega : Vector RegWord Config.regCount
  /-- CB: the character buffer (R34). -/
  cb : Store 16
  /-- FONT: the downloadable font memory (R37). -/
  font : Store 8
  /-- FB: the pixel framebuffer (R39). -/
  fb : Store Config.fbW
  /-- Model's own: what the last read returned to the HOST. -/
  returned : Option Reply
  /-- Model's own: what the HOST has still to issue, in program order. -/
  pending : List HostItem
  /-- Model's own: ENV's turns still to come, one a step. -/
  env : List EnvTurn
  /-- Model's own: the number of the last reset; it selects the reset draws. -/
  epoch : Nat
  /-- Model's own: how many logo steps have drawn; it selects the next draws. -/
  draws : Nat
  deriving DecidableEq, Repr

/-- Every memory of the state is in its canonical form (log entry 9). -/
abbrev Memory.wf (s : State) : Prop :=
  Store.wf (Config.cbDraw s.epoch) Config.charbufCells s.cb ∧
  Store.wf (Config.fontDraw s.epoch) Config.fontBytes s.font ∧
  Store.wf (Config.fbDraw s.epoch) Config.fbWords s.fb

/-- The 31 registers holding the values `f`. -/
def regFileOf (f : Reg → RegWord) : Vector RegWord Config.regCount := ⟨⟨List.ofFn f⟩, by simp⟩

/-- The machine right after reset (R44): `initDone` false, `engine` IDLE, `fault` NONE, every other element a draw; the HOST has
issued nothing and ENV has no turn planned. Log entries 1, 2, 5, 6, 10 and 11. -/
def State.reset : State where
  cursor := Config.cursorDraw 0
  initDone := false
  engine := .idle
  fault := none
  regp := regFileOf (Config.regpDraw 0)
  rega := regFileOf (Config.regaDraw 0)
  cb := []
  font := []
  fb := []
  returned := none
  pending := []
  env := []
  epoch := 0
  draws := 0

end Sys2Proof.Machine
end

