-- ==== Sys2Proof/Machine/Flags.lean ====
section
/-!
DEFINITION. TCON has no flag and no condition code (spec/10_state.md R22). This file holds the conditions it does test: those of a HOST
command (spec/40_console.md R76, spec/42_bus_access.md R113), as one operation that every meaning goes through.
-/

namespace Sys2Proof.Machine

/-- The HOST's command has been performed, with or without a fault: the HOST goes on to the next one (R54). -/
def State.retire (s : State) : State := { s with pending := s.pending.tail }

/-- A HOST command whose performance leaves `after` (R113, R128): with a fault recorded no agent has a step; while ENGINE is busy the
command is held, so it stays the HOST's next one and nothing changes (R146, log entry 3); otherwise it is performed and retired. -/
def hostCommand (s after : State) : Host.Outcome State Fault Refusal :=
  match s.fault, s.engine with
  | some f, _ => .fault (.stopped f)
  | none, .step _ => .next s
  | none, .idle => .next after.retire

end Sys2Proof.Machine
end

