-- ==== Sys2Proof/Machine/Operands.lean ====
section
/-!
DEFINITION. The operand forms: an element index and its bound (spec/20_memory.md R45, spec/42_bus_access.md R120), a register number
and the registers' names (spec/10_state.md R23), the cell a printed byte makes (spec/40_console.md R83), and the platform's
addresses, which no command uses (spec/20_memory.md R46).
-/

namespace Sys2Proof.Machine

/-- The element count of a space (R45, R120); the two command ports have one element each. -/
def elementCount : Space → Nat
  | .char => Config.charbufCells
  | .reg => Config.regCount
  | .font => Config.fontBytes
  | .fb => Config.fbWords
  | .con => 1
  | .ctl => 1

/-- The register an index below 31 names (R64). -/
def regOfIdx (idx : Nat) : Reg := Fin.ofNat Config.regCount idx

/-! ### The registers of R23 -/

/-- Cursor visibility (R26). -/
def regCursv : Reg := 0
/-- The cursor's column (R27). -/
def regXcur : Reg := 1
/-- The cursor's row (R27). -/
def regYcur : Reg := 2
/-- Horizontal timing start (R28). -/
def regHstart : Reg := 3
/-- Horizontal timing sync (R28). -/
def regHsyn : Reg := 4
/-- Horizontal timing stop (R28). -/
def regHstop : Reg := 5
/-- Vertical timing start (R28). -/
def regVstart : Reg := 6
/-- Vertical timing sync, which INIT leaves (R28, C1). -/
def regVsyn : Reg := 7
/-- Vertical timing stop (R28). -/
def regVstop : Reg := 8
/-- Pixel-region start (R29). -/
def regPstart : Reg := 9
/-- Pixel-region stop (R29). -/
def regPstop : Reg := 10
/-- Pixel horizontal scale (R29). -/
def regXscale : Reg := 11
/-- Pixel vertical scale (R29). -/
def regYscale : Reg := 12
/-- Font-download limit (R30). -/
def regFlimit : Reg := 13
/-- PAL[i], register 14 + i (R31). -/
def regPal (i : Fin 16) : Reg := ⟨14 + i.val, Nat.add_lt_add_left i.isLt 14 |>.trans (by decide)⟩
/-- The display mode (R32). -/
def regMode : Reg := 30

/-! ### Values -/

/-- A natural cut to a register's width (R11). -/
def toRegWord (n : Nat) : RegWord := BitVec.ofNat Config.regW n

/-- The cell a printed byte makes: `0x0F00 | zext_16(B)` (R65, R83). -/
def printedCell (b : Byte) : CharCell := Config.printAttr ||| b.setWidth 16

/-- The cell `{attribute, character}` (R8, R35). -/
def cellOf (attr ch : Byte) : CharCell := attr ++ ch

/-- The first cell of an index's row: `c & ~127` (R80). -/
def rowStart (c : Nat) : Nat := c - c % Config.rowCells

/-- The first cell of the next row: `(c | 127) + 1` (R81). -/
def nextRow (c : Nat) : Nat := rowStart c + Config.rowCells

/-! ### Platform addresses (R46, R52; log entry 15) -/

/-- The element width of a space in bits (R45, R50); the control port has none. -/
def elementWidth : Space → Nat
  | .char => 16
  | .reg => Config.regW
  | .font => 8
  | .fb => Config.fbW
  | .con => 8
  | .ctl => 0

/-- The element bytes of a space (R46): the fewest that hold its width (DEDUCED, log entry 15). -/
def elementBytes (sp : Space) : Nat := (elementWidth sp + 7) / 8

/-- REG_OFFSET(r) (R23). -/
def regOffset (r : Reg) : Nat := Config.regOffsetPerm r.val

/-- The spaces that have a base address; the spec gives none for the two command ports (R46, R52). -/
def memorySpaces : List Space := [.char, .reg, .font, .fb]

/-- BASE_CHAR, BASE_REG, BASE_FONT and BASE_FB (R6). -/
structure Bases where
  char : Nat
  reg  : Nat
  font : Nat
  fb   : Nat
  deriving DecidableEq, Repr

/-- The first byte of element i of a space (R46); 0 for a command port, which has no address. -/
def elementStart (b : Bases) (sp : Space) (i : Nat) : Nat :=
  match sp with
  | .char => b.char + i * elementBytes .char
  | .reg => b.reg + regOffset (regOfIdx i)
  | .font => b.font + i * elementBytes .font
  | .fb => b.fb + i * elementBytes .fb
  | .con => 0
  | .ctl => 0

/-- The `m` bytes from `x` on and the `n` bytes from `y` on have none in common. -/
abbrev Apart (x m y n : Nat) : Prop := min (x + m) (y + n) ≤ max x y

/-- The four regions do not overlap (R6, R52): elements of two spaces share no byte. -/
abbrev RegionsDisjoint (b : Bases) : Prop :=
  ∀ sp ∈ memorySpaces, ∀ sq ∈ memorySpaces, sp ≠ sq → ∀ i < elementCount sp, ∀ j < elementCount sq,
    Apart (elementStart b sp i) (elementBytes sp) (elementStart b sq j) (elementBytes sq)

/-- Bases that put the regions one after the other, the registers last. -/
def packedBases : Bases where
  char := 0
  font := elementCount .char * elementBytes .char
  fb := elementCount .char * elementBytes .char + elementCount .font * elementBytes .font
  reg := elementCount .char * elementBytes .char + elementCount .font * elementBytes .font + elementCount .fb * elementBytes .fb

/-- Bases that meet R6's constraint: `b` where it does, so that every choice R6 admits is reached (log entry 15). -/
def basesOf (b : Bases) : Bases := if RegionsDisjoint b then b else packedBases

/-- The platform's bases: of four numbers open but for R6's constraint. -/
def platformBases : Bases :=
  basesOf ⟨Config.someBaseChar, Config.someBaseReg, Config.someBaseFont, Config.someBaseFb⟩

/-- The platform byte address of element i of a space (R46); none for an index past the space's count and for the two command ports. -/
def platformAddress (sp : Space) (i : Nat) : Option Nat :=
  if sp ∈ memorySpaces ∧ i < elementCount sp then some (elementStart platformBases sp i) else none

end Sys2Proof.Machine
end

