-- ==== Sys2Proof/Machine/Ops.lean ====
section
/-!
DEFINITION. The named operations over memory and registers (spec/00_scope.md R9), raising a fault (spec/60_exceptions.md R127), the index
check (spec/42_bus_access.md R120), the frame latch (R121) and the platform's reset (spec/70_reset_and_hazards.md R141).
-/

namespace Sys2Proof.Machine

/-! ### Memories -/

/-- Element i of a memory whose unlisted elements read as `dflt`. -/
def Store.read {w : Nat} (dflt : Nat → BitVec w) (m : Store w) (i : Nat) : BitVec w :=
  ((m.find? fun e => e.1 == i).map Prod.snd).getD (dflt i)

/-- The entries that elements a .. a+n-1 holding `f` need: none for one that holds what an unlisted index reads as. -/
def Store.cells {w : Nat} (dflt : Nat → BitVec w) (a n : Nat) (f : Nat → BitVec w) : Store w :=
  (List.range' a n).filterMap fun i => if f i = dflt i then none else some (i, f i)

/-- Write `f i` to every element i from a to a+n-1, the one operation through which a memory changes; it keeps the canonical form. -/
def Store.fill {w : Nat} (dflt : Nat → BitVec w) (a n : Nat) (f : Nat → BitVec w) (m : Store w) : Store w :=
  m.filter (fun e => decide (e.1 < a)) ++ Store.cells dflt a n f ++ m.filter (fun e => decide (a + n ≤ e.1))

/-- `M[i] <- v` (R9). -/
def Store.write {w : Nat} (dflt : Nat → BitVec w) (i : Nat) (v : BitVec w) (m : Store w) : Store w :=
  Store.fill dflt i 1 (fun _ => v) m

/-- CB[i] (R9, R111). -/
def State.cell (s : State) (i : Nat) : CharCell := Store.read (Config.cbDraw s.epoch) s.cb i

/-- FONT[a] (R9, R117). -/
def State.fontByte (s : State) (a : Nat) : Byte := Store.read (Config.fontDraw s.epoch) s.font a

/-- FB[i] (R9, R119). -/
def State.fbWord (s : State) (i : Nat) : FbWord := Store.read (Config.fbDraw s.epoch) s.fb i

/-- Cells a .. a+n-1 of CB take the values of `f`. -/
def State.fillCells (s : State) (a n : Nat) (f : Nat → CharCell) : State :=
  { s with cb := Store.fill (Config.cbDraw s.epoch) a n f s.cb }

/-- Bytes a .. a+n-1 of FONT take the values of `f`. -/
def State.fillFont (s : State) (a n : Nat) (f : Nat → Byte) : State :=
  { s with font := Store.fill (Config.fontDraw s.epoch) a n f s.font }

/-- Words a .. a+n-1 of FB take the values of `f`. -/
def State.fillFb (s : State) (a n : Nat) (f : Nat → FbWord) : State :=
  { s with fb := Store.fill (Config.fbDraw s.epoch) a n f s.fb }

/-- `CB[i] <- v` (R112). -/
def State.setCell (s : State) (i : Nat) (v : CharCell) : State := s.fillCells i 1 fun _ => v

/-- `FONT[a] <- v` (R118). -/
def State.setFontByte (s : State) (a : Nat) (v : Byte) : State := s.fillFont a 1 fun _ => v

/-- `FB[i] <- v` (R122). -/
def State.setFbWord (s : State) (i : Nat) (v : FbWord) : State := s.fillFb i 1 fun _ => v

/-! ### Registers -/

/-- REGP[r], the value last written (R24). -/
def State.regP (s : State) (r : Reg) : RegWord := s.regp.get r

/-- REGA[r], the value in effect (R24). -/
def State.regA (s : State) (r : Reg) : RegWord := s.rega.get r

/-- Write every register r for which `v r` is a value; only the pending copies change (R24). -/
def State.setRegs (s : State) (v : Reg → Option RegWord) : State :=
  { s with regp := regFileOf fun r => (v r).getD (s.regP r) }

/-- `REGP[r] <- v` (R116). -/
def State.setReg (s : State) (r : Reg) (v : RegWord) : State :=
  s.setRegs fun q => if q = r then some v else none

/-! ### Faults and replies -/

/-- `raise F(info)` (R127): the fault is recorded, and none of the command's writes are done. -/
def State.raise (s : State) (f : FaultInfo) : State := { s with fault := some f }

/-- The fault codes of R126. -/
def faultCode : FaultInfo → Nat
  | .useBeforeInit _ => 1
  | .badIndex _ _ => 2
  | .illegalCommand _ => 3

/-- The value a read returns to the HOST; nothing else changes (R51). -/
def State.reply (s : State) (v : Reply) : State := { s with returned := some v }

/-- The index check of R120: `done` when the space has the element, else BAD_INDEX and nothing of `done`. -/
def checkIndex (sp : Space) (idx : Nat) (s done : State) : State :=
  if idx < elementCount sp then done else s.raise (.badIndex sp idx)

/-! ### Events -/

/-- FRAME (R121): every REGP[r] is copied to REGA[r]. -/
def frameEvent (s : State) : State := { s with rega := s.regp }

/-- The platform's reset (R44, R141): `fault` is cleared, and every element the spec gives no value is drawn afresh. The HOST's program,
ENV's schedule and what the HOST has read are no part of TCON and stay (log entry 6). -/
def platformReset (s : State) : State :=
  { s with
    cursor := Config.cursorDraw (s.epoch + 1)
    initDone := false
    engine := .idle
    fault := none
    regp := regFileOf (Config.regpDraw (s.epoch + 1))
    rega := regFileOf (Config.regaDraw (s.epoch + 1))
    cb := []
    font := []
    fb := []
    epoch := s.epoch + 1 }

end Sys2Proof.Machine
end

