-- ==== Sys2Proof/Machine/Bus.lean ====
section
/-!
DEFINITION. The host's reads and writes of the four memory spaces (spec/42_bus_access.md R111 to R120, R122). They need no completed INIT
(R114).
-/

namespace Sys2Proof.Machine

/-- RD.CHAR (R111). -/
def execRdChar (idx : Nat) (s : State) : Host.Outcome State Fault Refusal :=
  hostCommand s (checkIndex .char idx s (s.reply (.char (s.cell idx))))

/-- WR.CHAR (R112): the cursor and its registers are not touched. -/
def execWrChar (idx : Nat) (data : CharCell) (s : State) : Host.Outcome State Fault Refusal :=
  hostCommand s (checkIndex .char idx s (s.setCell idx data))

/-- RD.REG (R115): the pending copy is read. -/
def execRdReg (idx : Nat) (s : State) : Host.Outcome State Fault Refusal :=
  hostCommand s (checkIndex .reg idx s (s.reply (.reg (s.regP (regOfIdx idx)))))

/-- WR.REG (R116): the pending copy is written, unclamped. -/
def execWrReg (idx : Nat) (data : RegWord) (s : State) : Host.Outcome State Fault Refusal :=
  hostCommand s (checkIndex .reg idx s (s.setReg (regOfIdx idx) data))

/-- RD.FONT (R117). -/
def execRdFont (idx : Nat) (s : State) : Host.Outcome State Fault Refusal :=
  hostCommand s (checkIndex .font idx s (s.reply (.font (s.fontByte idx))))

/-- WR.FONT (R118). -/
def execWrFont (idx : Nat) (data : Byte) (s : State) : Host.Outcome State Fault Refusal :=
  hostCommand s (checkIndex .font idx s (s.setFontByte idx data))

/-- RD.FB (R119). -/
def execRdFb (idx : Nat) (s : State) : Host.Outcome State Fault Refusal :=
  hostCommand s (checkIndex .fb idx s (s.reply (.fb (s.fbWord idx))))

/-- WR.FB (R122). -/
def execWrFb (idx : Nat) (data : FbWord) (s : State) : Host.Outcome State Fault Refusal :=
  hostCommand s (checkIndex .fb idx s (s.setFbWord idx data))

end Sys2Proof.Machine
end

