-- ==== Sys2Proof/Machine/Console.lean ====
section
/-!
DEFINITION. The console's put_char family (spec/40_console.md R75 to R90). A PUTC is one transition (R77): the byte's action on a working
copy of the cursor and the character buffer, the scroll check, and the cursor-register sync. The action and the scroll take the grid and
the buffer's reset draws as arguments, so that the spec's vectors can be run on the spec's own configurations.
-/

namespace Sys2Proof.Machine

/-- The console grid [start, cap) (R13, R36). -/
structure Grid where
  start : Nat
  cap   : Nat
  deriving DecidableEq, Repr

/-- The working copy `c` of the cursor, and CB, within one PUTC (R87). -/
structure Screen where
  c  : Nat
  cb : Store 16
  deriving DecidableEq, Repr

/-- This machine's grid: [GRID_START, CAP) (R6). -/
def consoleGrid : Grid := ⟨Config.gridStart, Config.cap⟩

/-- Backspace and delete (R78, R79): off column 0 the cursor steps back and blanks the cell it ends on. -/
def eraseBack (dflt : Nat → CharCell) (x : Screen) : Screen :=
  if x.c % Config.rowCells = 0 then x
  else { c := x.c - 1, cb := Store.write dflt (x.c - 1) Config.blank x.cb }

/-- Carriage return (R80). -/
def carriageReturn (x : Screen) : Screen := { x with c := rowStart x.c }

/-- Linefeed (R81, R82): blank from the cursor's own cell to the end of its row, and go to the start of the next row. -/
def lineFeed (dflt : Nat → CharCell) (x : Screen) : Screen :=
  { c := nextRow x.c, cb := Store.fill dflt x.c (nextRow x.c - x.c) (fun _ => Config.blank) x.cb }

/-- Glyph write (R83, R84). -/
def printByte (dflt : Nat → CharCell) (b : Byte) (x : Screen) : Screen :=
  { c := x.c + 1, cb := Store.write dflt x.c (printedCell b) x.cb }

/-- The scroll check (R85): from CAP on, every grid cell takes the value of the cell one row below it, the last row is blank, and the
cursor goes to the start of the last row. Each source cell is read before any write to it, so this is a simultaneous shift (log
entry 19). -/
def scrollCheck (g : Grid) (dflt : Nat → CharCell) (x : Screen) : Screen :=
  if g.cap ≤ x.c then
    { c := g.cap - Config.rowCells
      cb := Store.fill dflt g.start (g.cap - g.start)
        (fun i => if i + Config.rowCells < g.cap then Store.read dflt x.cb (i + Config.rowCells) else Config.blank) x.cb }
  else x

/-- The cursor, CB and the cursor registers at the end of a PUTC (R86). -/
def State.putScreen (s : State) (x : Screen) : State :=
  { s with cursor := x.c, cb := x.cb }.setRegs fun r =>
    if r = regXcur then some (toRegWord (x.c % Config.rowCells))
    else if r = regYcur then some (toRegWord (x.c / Config.rowCells))
    else none

/-- The screen a PUTC starts from (R87). -/
def State.screen (s : State) : Screen := ⟨s.cursor, s.cb⟩

/-- A performed PUTC of byte `b` with its action (R76, R87): before a completed INIT it raises USE_BEFORE_INIT and does nothing else. -/
def putChar (b : Byte) (action : (Nat → CharCell) → Screen → Screen) (s : State) : State :=
  if s.initDone then
    s.putScreen (scrollCheck consoleGrid (Config.cbDraw s.epoch) (action (Config.cbDraw s.epoch) s.screen))
  else s.raise (.useBeforeInit b)

/-- PUTC.BS (R78). -/
def execPutcBs (s : State) : Host.Outcome State Fault Refusal :=
  hostCommand s (putChar 0x08#8 eraseBack s)

/-- PUTC.DEL (R79). -/
def execPutcDel (s : State) : Host.Outcome State Fault Refusal :=
  hostCommand s (putChar 0x7F#8 eraseBack s)

/-- PUTC.CR (R80). -/
def execPutcCr (s : State) : Host.Outcome State Fault Refusal :=
  hostCommand s (putChar 0x0D#8 (fun _ => carriageReturn) s)

/-- PUTC.LF (R81). -/
def execPutcLf (s : State) : Host.Outcome State Fault Refusal :=
  hostCommand s (putChar 0x0A#8 lineFeed s)

/-- PUTC.PRINT (R83). -/
def execPutcPrint (b : Byte) (s : State) : Host.Outcome State Fault Refusal :=
  hostCommand s (putChar b (fun dflt => printByte dflt b) s)

end Sys2Proof.Machine
end

