-- ==== Sys2Proof/Machine/Init.lean ====
section
/-!
DEFINITION. The INIT command and the ten ENGINE steps it starts (spec/41_init_engine.md R91 to R107). Each step is one transition, writes
its targets whatever they held (R94), and then moves `engine` on (R92).
-/

namespace Sys2Proof.Machine

/-- INIT (R91): `initDone` stays as it is (R110). -/
def execInit (s : State) : Host.Outcome State Fault Refusal :=
  hostCommand s { s with engine := .step .s1 }

/-- The engine after a step: STEP(k+1) for k < 10, IDLE for k = 10 (R92). -/
def engineAfter : InitStep → Engine
  | .s1 => .step .s2
  | .s2 => .step .s3
  | .s3 => .step .s4
  | .s4 => .step .s5
  | .s5 => .step .s6
  | .s6 => .step .s7
  | .s7 => .step .s8
  | .s8 => .step .s9
  | .s9 => .step .s10
  | .s10 => .idle

/-- Step 1 (R95). -/
def initCursor (s : State) : State := { s with cursor := Config.gridStart }

/-- Step 2 (R96): visibility, and the position step 1 set. -/
def initCursorRegs (s : State) : State :=
  s.setRegs fun r =>
    if r = regCursv then some Config.cursvInit
    else if r = regXcur then some (toRegWord (s.cursor % Config.rowCells))
    else if r = regYcur then some (toRegWord (s.cursor / Config.rowCells))
    else none

/-- Step 3 (R97): VSYN is not written (C1). -/
def initTiming (s : State) : State :=
  s.setRegs fun r =>
    if r = regHstart then some Config.hstartInit
    else if r = regHsyn then some Config.hsynInit
    else if r = regHstop then some Config.hstopInit
    else if r = regVstart then some Config.vstartInit
    else if r = regVstop then some Config.vstopInit
    else none

/-- Step 4 (R98). -/
def initPixels (s : State) : State :=
  s.setRegs fun r =>
    if r = regPstart then some Config.pstartInit
    else if r = regPstop then some Config.pstopInit
    else if r = regXscale then some Config.xscaleInit
    else if r = regYscale then some Config.yscaleInit
    else if r = regFlimit then some Config.flimitInit
    else none

/-- Step 5 (R99): PAL[i] is register 14 + i. -/
def initPalette (s : State) : State :=
  s.setRegs fun r => if 14 ≤ r.val ∧ r.val < 30 then some (Config.paletteInit (r.val - 14)) else none

/-- The upload transform of a ROM row: mask, then shift (R100). -/
def packRow (row : Byte) : Byte := (row &&& 0xFC#8) >>> 1

/-- Byte a of the font after the upload (R100, R101): row a mod 16 of glyph a / 16. -/
def uploadedByte (rom : Nat → Nat → Byte) (a : Nat) : Byte :=
  if a / Config.fontRows = Config.blockGlyph then 0xFF#8
  else if a % Config.fontRows < Config.romRows then packRow (rom (a / Config.fontRows) (a % Config.fontRows))
  else 0x00#8

/-- Step 6 (R100, R101). -/
def initFont (s : State) : State := s.fillFont 0 Config.fontBytes (uploadedByte Config.glyphRom)

/-- Step 7 (R102). -/
def initClearFb (s : State) : State := s.fillFb 0 Config.fbWords fun _ => 0

/-- The status-bar cell at column `col` of row `row` (R104). -/
def statusCell (row col : Nat) : CharCell :=
  if col < Config.statusZ1End then Config.statusZ1 row
  else if col < Config.statusZ2End then Config.statusZ2
  else cellOf (Config.statusZ3Attr row) Config.statusZ3Char

/-- Step 8 (R103, R104): mode 2, then the status bar over cells 0..4095. -/
def initStatusBar (s : State) : State :=
  (s.setReg regMode (toRegWord Config.modeStatus)).fillCells 0 Config.statusCells
    fun i => statusCell (i / Config.rowCells) (i % Config.rowCells)

/-- Step 9 (R105): every framebuffer word is drawn; the next logo step draws afresh. -/
def initLogo (s : State) : State :=
  { s.fillFb 0 Config.fbWords (Config.logoDraw s.draws) with draws := s.draws + 1 }

/-- Step 10 (R106). -/
def initActivate (s : State) : State :=
  { s.setReg regMode (toRegWord Config.modeActive) with initDone := true }

/-- What INIT step k writes (R107). -/
def initEffect : InitStep → State → State
  | .s1 => initCursor
  | .s2 => initCursorRegs
  | .s3 => initTiming
  | .s4 => initPixels
  | .s5 => initPalette
  | .s6 => initFont
  | .s7 => initClearFb
  | .s8 => initStatusBar
  | .s9 => initLogo
  | .s10 => initActivate

/-- ENGINE's step from STEP(k): step k's writes, then the sequence moves on (R92). -/
def engineStep (k : InitStep) (s : State) : State := { initEffect k s with engine := engineAfter k }

end Sys2Proof.Machine
end

