-- ==== Sys2Proof/Machine/Dispatch.lean ====
section
/-!
DEFINITION. Which meaning each command has: one arm a constructor, one direct call an arm.
-/

namespace Sys2Proof.Machine

/-- The performance of a decoded HOST command. -/
def exec (i : Instr) (s : State) : Host.Outcome State Fault Refusal :=
  match i with
  | .rdChar idx => Sys2Proof.Machine.execRdChar idx s
  | .wrChar idx data => Sys2Proof.Machine.execWrChar idx data s
  | .rdReg idx => Sys2Proof.Machine.execRdReg idx s
  | .wrReg idx data => Sys2Proof.Machine.execWrReg idx data s
  | .rdFont idx => Sys2Proof.Machine.execRdFont idx s
  | .wrFont idx data => Sys2Proof.Machine.execWrFont idx data s
  | .rdFb idx => Sys2Proof.Machine.execRdFb idx s
  | .wrFb idx data => Sys2Proof.Machine.execWrFb idx data s
  | .putcBs => Sys2Proof.Machine.execPutcBs s
  | .putcDel => Sys2Proof.Machine.execPutcDel s
  | .putcCr => Sys2Proof.Machine.execPutcCr s
  | .putcLf => Sys2Proof.Machine.execPutcLf s
  | .putcPrint b => Sys2Proof.Machine.execPutcPrint b s
  | .init => Sys2Proof.Machine.execInit s

end Sys2Proof.Machine
end

