-- ==== Sys2Proof/Machine/Turn.lean ====
section
/-!
DEFINITION. Whose step is next, and what it does (spec/00_scope.md R12, spec/60_exceptions.md R130). ENV's planned turns say where FRAME and
reset fall; while `engine` is not IDLE the HOST has no step (R146), so nothing else is left to choose. Log entries 2 and 18.
-/

namespace Sys2Proof.Machine

/-- The HOST issues a command (R113, R124, R128): an ILLEGAL one raises ILLEGAL_COMMAND, any other is performed. -/
def performCommand (c : Command) (s : State) : Host.Outcome State Fault Refusal :=
  match decode c with
  | .ok i => exec i s
  | .illegal _ => hostCommand s (s.raise (.illegalCommand c.cw))

/-- The step of the agents other than ENV (R92, R127, R146). When ENGINE is IDLE and the HOST has nothing to issue, FRAME is the only
step left (R142, R156). -/
def agentTurn (s : State) : Host.Outcome State Fault Refusal :=
  match s.fault, s.engine, s.pending with
  | some f, _, _ => .fault (.stopped f)
  | none, .step k, _ => .next (engineStep k s)
  | none, .idle, .command c :: _ => performCommand c s
  | none, .idle, .partialAccess sp :: _ => .refused (.partialAccess sp)
  | none, .idle, [] => .next (frameEvent s)

/-- FRAME's step, which exists exactly when `fault` = NONE (R121, R127). -/
def frameTurn (s : State) : Host.Outcome State Fault Refusal :=
  match s.fault with
  | some f => .fault (.stopped f)
  | none => .next (frameEvent s)

/-- One step of the machine. Reset needs no agent to have a step: it is the one event a faulted machine takes (R127, R141). -/
def takeTurn (s : State) : Host.Outcome State Fault Refusal :=
  match s.env with
  | [] => agentTurn s
  | .pass :: rest => agentTurn { s with env := rest }
  | .frame :: rest => frameTurn { s with env := rest }
  | .reset :: rest => .next (platformReset { s with env := rest })

/-- ENV lets the next step be another agent's. -/
def envPassing : List EnvTurn → List EnvTurn
  | [] => []
  | e :: rest => .pass :: e :: rest

/-- The state in which the HOST issues `c` at the very next step. -/
def State.withCommand (s : State) (c : Command) : State :=
  { s with
    fault := none
    engine := .idle
    pending := .command c :: s.pending
    env := envPassing s.env }

end Sys2Proof.Machine
end

