-- ==== Sys2Proof/Machine/Step.lean ====
section
/-!
DEFINITION. The step function, and how the host places one command where the next step takes it (log entry 1).
-/

namespace Sys2Proof.Machine

/-- One step of TCON (R130). -/
def step (s : State) : Host.Outcome State Fault Refusal := takeTurn s

/-- The state in which the very next step performs the command whose bits the opcode table numbers 0 to `nbits - 1`. TCON fetches
nothing (R48): its HOST issues the command, so it becomes the first of the HOST's, ENV leaves it the turn, and the two conditions of
R113 hold. -/
def State.withFetchWord (s : State) (nbits w : Nat) : State := s.withCommand (commandOfTableWord nbits w)

end Sys2Proof.Machine
end

