-- ==== Sys2Proof/Machine/Asm.lean ====
section
/-!
DEFINITION. The pseudo-commands (spec/30_encoding.md R72, R73) and the assembly syntax of one line (R71), on lists of characters. No step
uses them: they say which commands a line of a HOST program stands for. Log entry 20.
-/

namespace Sys2Proof.Machine

/-! ### Pseudo-commands (R72) -/

/-- `putc`: the byte's command word (R71). -/
def putcCommand (b : Byte) : Command := ⟨putcWord b, 0, 0⟩

/-- `puts` and `putb`: one `putc` a byte, in order, with no terminator (R72, R73). -/
def putBytes (bs : List Byte) : List Command := bs.map putcCommand

/-- `inc.reg` when the read returned `v`: the read, then the write of trunc_REG_W(v + 1) (R72). -/
def incReg (r : Reg) (v : RegWord) : List Command :=
  [encode (.rdReg r.val), encode (.wrReg r.val (toRegWord (v.toNat + 1)))]

/-- `dec.reg` when the read returned `v`: the write is of trunc_REG_W(v + 2^REG_W - 1) (R72). -/
def decReg (r : Reg) (v : RegWord) : List Command :=
  [encode (.rdReg r.val), encode (.wrReg r.val (toRegWord (v.toNat + 2 ^ Config.regW - 1)))]

/-! ### Reading a line -/

/-- What a line stands for: commands, or `inc.reg` and `dec.reg`, whose write depends on the value read. -/
inductive AsmLine where
  | commands (cs : List Command)
  | inc (r : Reg)
  | dec (r : Reg)
  deriving DecidableEq, Repr

/-- Where the reader of a line stands: between quotes, or just after a backslash between quotes. -/
inductive LexMode where
  | plain
  | quoted (q : Char)
  | escaped (q : Char)
  deriving DecidableEq, Repr

/-- A token that has been read, if any character of it has. -/
def flushToken (cur : List Char) (rest : List (List Char)) : List (List Char) :=
  if cur.isEmpty then rest else cur.reverse :: rest

/-- The tokens of a line: separated by blanks and commas, up to a comment. `cur` is the token being read, reversed. -/
def lexLine : LexMode → List Char → List Char → List (List Char)
  | _, cur, [] => flushToken cur []
  | .plain, cur, c :: cs =>
    if c = ';' then flushToken cur []
    else if c = ' ' ∨ c = '\t' ∨ c = ',' then flushToken cur (lexLine .plain [] cs)
    else if c = '\'' ∨ c = '"' then lexLine (.quoted c) (c :: cur) cs
    else lexLine .plain (c :: cur) cs
  | .quoted q, cur, c :: cs =>
    if c = q then lexLine .plain (c :: cur) cs
    else if c = '\\' then lexLine (.escaped q) (c :: cur) cs
    else lexLine (.quoted q) (c :: cur) cs
  | .escaped q, cur, c :: cs => lexLine (.quoted q) (c :: cur) cs

/-- The value of a digit. -/
def digitValue (c : Char) : Option Nat :=
  if '0' ≤ c ∧ c ≤ '9' then some (c.toNat - 48)
  else if 'a' ≤ c ∧ c ≤ 'f' then some (c.toNat - 87)
  else if 'A' ≤ c ∧ c ≤ 'F' then some (c.toNat - 55)
  else none

/-- The number a string of digits of a base makes, onto `acc`. -/
def digitsValue (base : Nat) : Nat → List Char → Option Nat
  | acc, [] => some acc
  | acc, c :: cs =>
    match digitValue c with
    | some d => if d < base then digitsValue base (acc * base + d) cs else none
    | none => none

/-- A decimal number, or a hexadecimal one with the mark 0x (R71). -/
def numberOf : List Char → Option Nat
  | [] => none
  | ['0', 'x'] => none
  | '0' :: 'x' :: ds => digitsValue 16 0 ds
  | ds => digitsValue 10 0 ds

/-- The bytes between quotes, with the five escapes of R71; the list ends at the closing quote `q`. DESIGN CHOICE (log entry 20): R71 names
no other escape, so a backslash that starts none of the five, and the quote character `q` itself, may not stand between quotes: such
a line is no line of the syntax. -/
def quotedBytes (q : Char) : List Char → Option (List Byte)
  | [] => none
  | '\\' :: 'x' :: '7' :: 'f' :: cs => (quotedBytes q cs).map (0x7F#8 :: ·)
  | '\\' :: 'b' :: cs => (quotedBytes q cs).map (0x08#8 :: ·)
  | '\\' :: 't' :: cs => (quotedBytes q cs).map (0x09#8 :: ·)
  | '\\' :: 'n' :: cs => (quotedBytes q cs).map (0x0A#8 :: ·)
  | '\\' :: 'r' :: cs => (quotedBytes q cs).map (0x0D#8 :: ·)
  | c :: cs =>
    if c = q then (if cs.isEmpty then some [] else none)
    else if c = '\\' then none
    else if c.toNat < 256 then (quotedBytes q cs).map (BitVec.ofNat 8 c.toNat :: ·)
    else none

/-- A byte operand: a number below 256, or one character in single quotes (R71). -/
def byteOf : List Char → Option Byte
  | '\'' :: cs =>
    match quotedBytes '\'' cs with
    | some [b] => some b
    | _ => none
  | ds =>
    match numberOf ds with
    | some n => if n < 256 then some (BitVec.ofNat 8 n) else none
    | none => none

/-- The registers' names (R23), but for the palette's. -/
def regNames : List (List Char × Reg) :=
  [ (['C', 'U', 'R', 'S', 'V'], regCursv), (['X', 'C', 'U', 'R'], regXcur), (['Y', 'C', 'U', 'R'], regYcur),
    (['H', 'S', 'T', 'A', 'R', 'T'], regHstart), (['H', 'S', 'Y', 'N'], regHsyn), (['H', 'S', 'T', 'O', 'P'], regHstop),
    (['V', 'S', 'T', 'A', 'R', 'T'], regVstart), (['V', 'S', 'Y', 'N'], regVsyn), (['V', 'S', 'T', 'O', 'P'], regVstop),
    (['P', 'S', 'T', 'A', 'R', 'T'], regPstart), (['P', 'S', 'T', 'O', 'P'], regPstop),
    (['X', 'S', 'C', 'A', 'L', 'E'], regXscale), (['Y', 'S', 'C', 'A', 'L', 'E'], regYscale),
    (['F', 'L', 'I', 'M', 'I', 'T'], regFlimit), (['M', 'O', 'D', 'E'], regMode) ]

/-- PAL[i] for i in 0..15 (R23). -/
def paletteOf (ds : List Char) : Option Nat :=
  match ds.getLast? with
  | some ']' =>
    match digitsValue 10 0 ds.dropLast with
    | some i => if 2 ≤ ds.length ∧ i < 16 then some (14 + i) else none
    | none => none
  | _ => none

/-- A register operand, by name or by number (R71). A number of 31 or more is a faulting index, so a command may carry it (R120). -/
def regIdxOf (tok : List Char) : Option Nat :=
  match regNames.find? (fun e => e.1 == tok) with
  | some (_, r) => some r.val
  | none =>
    match tok with
    | 'P' :: 'A' :: 'L' :: '[' :: ds => paletteOf ds
    | _ => numberOf tok

/-- The register that `inc.reg` and `dec.reg` name. DESIGN CHOICE (log entry 20): R72 does not say what they do with a number of 31 or
above, for which there is no value to write back; such a line is no line of the syntax. -/
def bumpRegOf (tok : List Char) : Option Reg :=
  match regIdxOf tok with
  | some i => if i < Config.regCount then some (regOfIdx i) else none
  | none => none

/-- A read's command, from its word and its operand. -/
def readLine (cw : CmdWord) (idx : Option Nat) : Option AsmLine :=
  idx.map fun i => .commands [⟨cw, i, 0⟩]

/-- A write's command, from its word and its operands. -/
def writeLine (cw : CmdWord) (idx data : Option Nat) : Option AsmLine :=
  match idx, data with
  | some i, some d => some (.commands [⟨cw, i, d⟩])
  | _, _ => none

/-- The bytes of `putb`'s operands, the last of which is the length. DESIGN CHOICE (log entry 20): R72 does not say what `putb` does with
a length above the number of bytes given; such a line is no line of the syntax. -/
def putbLine (ops : List (List Char)) : Option AsmLine :=
  match (ops.getLast?).bind numberOf, ops.dropLast.mapM byteOf with
  | some len, some bs => if len ≤ bs.length then some (.commands (putBytes (bs.take len))) else none
  | _, _ => none

/-- The line that a mnemonic and its operands make (R71, R72). -/
def lineOf : List (List Char) → Option AsmLine
  | [['i', 'n', 'i', 't']] => some (.commands [⟨0xB00#12, 0, 0⟩])
  | [['b', 's']] => some (.commands [putcCommand 0x08#8])
  | [['d', 'e', 'l']] => some (.commands [putcCommand 0x7F#8])
  | [['c', 'r']] => some (.commands [putcCommand 0x0D#8])
  | [['l', 'f']] => some (.commands [putcCommand 0x0A#8])
  | [['p', 'u', 't', 'c'], b] => (byteOf b).map fun b => .commands [putcCommand b]
  | [['p', 'u', 't', 's'], '"' :: cs] => (quotedBytes '"' cs).map fun bs => .commands (putBytes bs)
  | ['p', 'u', 't', 'b'] :: ops => putbLine ops
  | [['r', 'd', '.', 'c', 'h', 'a', 'r'], i] => readLine 0x000#12 (numberOf i)
  | [['w', 'r', '.', 'c', 'h', 'a', 'r'], i, d] => writeLine 0x100#12 (numberOf i) (numberOf d)
  | [['r', 'd', '.', 'r', 'e', 'g'], i] => readLine 0x200#12 (regIdxOf i)
  | [['w', 'r', '.', 'r', 'e', 'g'], i, d] => writeLine 0x300#12 (regIdxOf i) (numberOf d)
  | [['r', 'd', '.', 'f', 'o', 'n', 't'], i] => readLine 0x400#12 (numberOf i)
  | [['w', 'r', '.', 'f', 'o', 'n', 't'], i, d] => writeLine 0x500#12 (numberOf i) (numberOf d)
  | [['r', 'd', '.', 'f', 'b'], i] => readLine 0x600#12 (numberOf i)
  | [['w', 'r', '.', 'f', 'b'], i, d] => writeLine 0x700#12 (numberOf i) (numberOf d)
  | [['i', 'n', 'c', '.', 'r', 'e', 'g'], r] => (bumpRegOf r).map .inc
  | [['d', 'e', 'c', '.', 'r', 'e', 'g'], r] => (bumpRegOf r).map .dec
  | _ => none

/-- One line of the assembly syntax (R71, R72); none where it is no line of it. -/
def assemble (line : List Char) : Option AsmLine := lineOf (lexLine .plain [] line)

/-! ### Writing a line -/

/-- An upper-case hexadecimal digit. -/
def hexDigit (n : Nat) : Char := if n < 10 then Char.ofNat (48 + n) else Char.ofNat (55 + n)

/-- The disassembler's spelling of a C-format command, `putc 0xHH` (R71). -/
def putcText (b : Byte) : List Char :=
  ['p', 'u', 't', 'c', ' ', '0', 'x', hexDigit (b.toNat / 16), hexDigit (b.toNat % 16)]

/-- The line of an instruction (R71): a C-format command as `putc 0xHH`, the others in decimal. -/
def disassemble : Instr → List Char
  | .rdChar i => ['r', 'd', '.', 'c', 'h', 'a', 'r', ' '] ++ Nat.toDigits 10 i
  | .wrChar i d => ['w', 'r', '.', 'c', 'h', 'a', 'r', ' '] ++ Nat.toDigits 10 i ++ [',', ' '] ++ Nat.toDigits 10 d.toNat
  | .rdReg i => ['r', 'd', '.', 'r', 'e', 'g', ' '] ++ Nat.toDigits 10 i
  | .wrReg i d => ['w', 'r', '.', 'r', 'e', 'g', ' '] ++ Nat.toDigits 10 i ++ [',', ' '] ++ Nat.toDigits 10 d.toNat
  | .rdFont i => ['r', 'd', '.', 'f', 'o', 'n', 't', ' '] ++ Nat.toDigits 10 i
  | .wrFont i d => ['w', 'r', '.', 'f', 'o', 'n', 't', ' '] ++ Nat.toDigits 10 i ++ [',', ' '] ++ Nat.toDigits 10 d.toNat
  | .rdFb i => ['r', 'd', '.', 'f', 'b', ' '] ++ Nat.toDigits 10 i
  | .wrFb i d => ['w', 'r', '.', 'f', 'b', ' '] ++ Nat.toDigits 10 i ++ [',', ' '] ++ Nat.toDigits 10 d.toNat
  | .putcBs => putcText 0x08#8
  | .putcDel => putcText 0x7F#8
  | .putcCr => putcText 0x0D#8
  | .putcLf => putcText 0x0A#8
  | .putcPrint b => putcText b
  | .init => ['i', 'n', 'i', 't']

end Sys2Proof.Machine
end

