-- ==== Sys2Proof/Reference.lean ====
section
/-!
DEFINITION. The PUTC transition as spec/40_console.md R87 lists it, statement by statement and with its loops run one index at a time
(spec/00_scope.md R10). The machine does not call it: statements compare the machine with it.
-/

namespace Sys2Proof.Machine

/-- `for i in a .. a+n-1`, upward, zero times when n is 0 (R10). -/
def forUp (a n : Nat) (body : Nat → Store 16 → Store 16) (m : Store 16) : Store 16 :=
  (List.range' a n).foldl (fun m i => body i m) m

/-- The byte's action of R87, on naturals with the bit operations R78 to R83 write. -/
def listedAction (dflt : Nat → CharCell) (b : Byte) (x : Screen) : Screen :=
  if b = 0x08#8 ∨ b = 0x7F#8 then
    if x.c &&& 127 ≠ 0 then ⟨x.c - 1, Store.write dflt (x.c - 1) Config.blank x.cb⟩ else x
  else if b = 0x0D#8 then ⟨x.c ^^^ (x.c &&& 127), x.cb⟩
  else if b = 0x0A#8 then
    ⟨(x.c ||| 127) + 1, forUp x.c ((x.c ||| 127) + 1 - x.c) (fun i => Store.write dflt i Config.blank) x.cb⟩
  else ⟨x.c + 1, Store.write dflt x.c (0x0F00#16 ||| b.setWidth 16) x.cb⟩

/-- The two loops of R85, in the order written: GRID_START .. CAP - 129 copies, CAP - 128 .. CAP - 1 blanks. -/
def listedScroll (g : Grid) (dflt : Nat → CharCell) (x : Screen) : Screen :=
  if x.c ≥ g.cap then
    ⟨g.cap - 128,
      forUp (g.cap - 128) 128 (fun i => Store.write dflt i Config.blank)
        (forUp g.start (g.cap - 128 - g.start) (fun i m => Store.write dflt i (Store.read dflt m (i + 128)) m) x.cb)⟩
  else x

/-- The cursor and CB that R87 leaves. -/
def listedPutc (g : Grid) (dflt : Nat → CharCell) (b : Byte) (x : Screen) : Screen :=
  listedScroll g dflt (listedAction dflt b x)

end Sys2Proof.Machine
end

