-- ==== Sys2Proof/Safety.lean ====
section
/-!
DEFINITION. What claims about TCON are stated in: a state in which a HOST command is performed, the cursor's range, the invariant every
step keeps, and the end of a run (spec/40_console.md R76, R88; spec/42_bus_access.md R113; spec/70_reset_and_hazards.md R156).
-/

namespace Sys2Proof.Machine

/-- A HOST command is performed in such a state, neither stopped nor held (R113). -/
abbrev State.Open (s : State) : Prop := s.fault = none ∧ s.engine = .idle

/-- A PUTC is performed in such a state without a fault ("Ready" of 95_test_vectors.md). -/
abbrev State.Ready (s : State) : Prop := s.Open ∧ s.initDone = true

/-- The cursor is in the grid (R17). -/
abbrev State.InGrid (s : State) : Prop := Config.gridStart ≤ s.cursor ∧ s.cursor < Config.cap

/-- INIT step 1 has run in the INIT now running. -/
def pastFirstStep : Engine → Bool
  | .idle => false
  | .step .s1 => false
  | .step _ => true

/-- Once INIT step 1 has set the cursor, and until a reset, it is in the grid (R17, R88). -/
abbrev State.CursorKept (s : State) : Prop := s.initDone = true ∨ pastFirstStep s.engine = true → s.InGrid

/-- The invariant of every step: the memories are canonical and the cursor is kept. -/
abbrev State.Inv (s : State) : Prop := Memory.wf s ∧ s.CursorKept

/-- The end of a run (R156). -/
abbrev State.Finished (s : State) : Prop := s.pending = [] ∧ s.engine = .idle ∧ s.fault = none

/-- ENV plans no reset. -/
abbrev State.NoReset (s : State) : Prop := EnvTurn.reset ∉ s.env

/-- The next step is a FRAME: ENV raises it, or leaves the turn and no other agent has a step (R121, R142). -/
def State.frameNext (s : State) : Bool :=
  s.fault.isNone && match s.env with
    | .frame :: _ => true
    | .reset :: _ => false
    | [] => s.engine == .idle && s.pending.isEmpty
    | .pass :: _ => s.engine == .idle && s.pending.isEmpty

/-- How many ENGINE steps are left before `engine` is IDLE (R92). -/
def stepsLeft : Engine → Nat
  | .idle => 0
  | .step .s1 => 10
  | .step .s2 => 9
  | .step .s3 => 8
  | .step .s4 => 7
  | .step .s5 => 6
  | .step .s6 => 5
  | .step .s7 => 4
  | .step .s8 => 3
  | .step .s9 => 2
  | .step .s10 => 1

/-- A bound on the steps before the next FRAME: the turns ENV has planned, the HOST's commands, each of which can start an INIT, and the
ENGINE steps left. -/
def State.workLeft (s : State) : Nat := s.env.length + 11 * s.pending.length + stepsLeft s.engine

/-- `n` steps of the machine, stopping at the first that answers no next state. -/
def runSteps (n : Nat) (s : State) : Host.Outcome State Fault Refusal := Host.Core.run Sys2Proof.core n s

/-- The INIT that ENGINE is running in `s` is over in `t`, whatever FRAMEs fell in between: ENGINE is IDLE, INIT complete, and no command of
the HOST's has been performed since `s` (R92, R93, R146). -/
abbrev InitEnds (s t : State) : Prop :=
  ∃ k, k ≤ stepsLeft s.engine + s.env.length ∧ runSteps k s = .next t ∧ t.Ready ∧ t.pending = s.pending

/-- The cells after one scroll of a screen whose cells are `f` (R85): each grid row takes the row below it, the last is blank. -/
def scrolled (f : Nat → CharCell) (j : Nat) : CharCell :=
  if Config.gridStart ≤ j ∧ j < Config.cap then if j + 128 < Config.cap then f (j + 128) else Config.blank else f j

/-- The outcome is a raise of `f` (R127): the fault is recorded and nothing else of TCON changes. What becomes of the HOST's queue is log
entry 14's. -/
abbrev Raises (o : Host.Outcome State Fault Refusal) (s : State) (f : FaultInfo) : Prop :=
  ∃ t, o = .next t ∧ t = { s with fault := some f, pending := t.pending }

/-- What a performed PUTC leaves when its cursor ends at `c` and its cells at `f`: the cursor registers follow the cursor (R86), and
nothing of TCON but the cursor, CB and those two registers changes (R89). -/
abbrev PutcLeaves (s t : State) (c : Nat) (f : Nat → CharCell) : Prop :=
  t = { s with cursor := c, cb := t.cb, regp := t.regp, pending := t.pending } ∧
  (∀ j, t.cell j = f j) ∧
  ∀ q, t.regP q = if q = regXcur then toRegWord (c % 128) else if q = regYcur then toRegWord (c / 128) else s.regP q

/-- The space and index an M-format command names (R63). -/
def memoryOperand : Instr → Option (Space × Nat)
  | .rdChar idx => some (.char, idx)
  | .wrChar idx _ => some (.char, idx)
  | .rdReg idx => some (.reg, idx)
  | .wrReg idx _ => some (.reg, idx)
  | .rdFont idx => some (.font, idx)
  | .wrFont idx _ => some (.font, idx)
  | .rdFb idx => some (.fb, idx)
  | .wrFb idx _ => some (.fb, idx)
  | .putcBs => none
  | .putcDel => none
  | .putcCr => none
  | .putcLf => none
  | .putcPrint _ => none
  | .init => none

/-- The command is a PUTC. -/
def isPutc : Instr → Bool
  | .rdChar _ => false
  | .wrChar _ _ => false
  | .rdReg _ => false
  | .wrReg _ _ => false
  | .rdFont _ => false
  | .wrFont _ _ => false
  | .rdFb _ => false
  | .wrFb _ _ => false
  | .putcBs => true
  | .putcDel => true
  | .putcCr => true
  | .putcLf => true
  | .putcPrint _ => true
  | .init => false

/-- The next step is the platform's reset (R141). -/
def State.resetNext (s : State) : Bool :=
  match s.env with
  | .reset :: _ => true
  | .frame :: _ => false
  | .pass :: _ => false
  | [] => false

/-- The next step performs the HOST's command `c`. -/
abbrev State.HostNext (s : State) (c : Command) : Prop :=
  s.Open ∧ s.pending.head? = some (.command c) ∧ (s.env = [] ∨ s.env.head? = some .pass)

/-- The next step is ENGINE's, at step k. -/
abbrev State.EngineNext (s : State) (k : InitStep) : Prop :=
  s.fault = none ∧ s.engine = .step k ∧ (s.env = [] ∨ s.env.head? = some .pass)

end Sys2Proof.Machine
end

