-- ==== Sys2Proof/Certificates/Slice0/Obligations.lean ====
section
/-!
DEFINITION. The statements about TCON for the provers. Each docstring names the rules of spec/ that the statement formalises. A statement
about a draw holds for every value of it. In every statement `t` is the state that the model answers; `pending := t.pending` and
`env := t.env` say nothing of the model's own queue and schedule (log entries 1 and 2), which have statements of their own.
-/

open Sys2Proof Sys2Proof.Machine

/-! ### Commands as words -/

/-- R66 to R68: decoding the encoding of a well-formed instruction gives it back, every operand at every value. -/
def Obligations.DecodeOfEncodeIsTheInstruction : Prop :=
  ∀ i : Instr, i.wellFormed = true → decode (encode i) = .ok i

/-- R68: what the decoder reads is well formed, and it is written with the word it was read from. -/
def Obligations.DecodedWordEncodesBack : Prop :=
  ∀ (c : Command) (i : Instr), decode c = .ok i → i.wellFormed = true ∧ (encode i).cw = c.cw

/-- R69: the illegal words are exactly (a) to (d), and performing one raises ILLEGAL_COMMAND. -/
def Obligations.IllegalWordsAreTheFourRanges : Prop :=
  ∀ c : Command,
    ((∃ why, decode c = .illegal why) ↔
      0xC00 ≤ c.cw.toNat ∨ (c.cw.toNat < 0x800 ∧ c.cw.toNat % 256 ≠ 0) ∨ (0x800 ≤ c.cw.toNat ∧ c.cw.toNat ≤ 0x8FF) ∨
      (0xA00 ≤ c.cw.toNat ∧ c.cw.toNat ≤ 0xAFF) ∨ (0xB01 ≤ c.cw.toNat ∧ c.cw.toNat ≤ 0xBFF)) ∧
    ∀ why, decode c = .illegal why → ∀ s : State, s.Open → Raises (performCommand c s) s (.illegalCommand c.cw)

/-- R68, R74: a legal word matches the table row of its instruction and no other row; an illegal word matches none. -/
def Obligations.DecodingFollowsTheOpcodeTable : Prop :=
  ∀ c : Command,
    (opcodeTable.filter fun row => row.matchesWord c.cw).map TableRow.mnemonic =
      match decode c with
      | .ok i => [i.mnemonic]
      | .illegal _ => []

/-- R67: the five put_char classes, PUTC.PRINT taking the 252 bytes the exact codes leave. -/
def Obligations.PutcBytesFallInFiveClasses : Prop :=
  (∀ (cw : CmdWord) (idx data : Nat), cw.toNat / 256 = 9 →
    decode ⟨cw, idx, data⟩ = .ok
      (if cw.toNat % 256 = 0x08 then .putcBs else if cw.toNat % 256 = 0x7F then .putcDel
       else if cw.toNat % 256 = 0x0D then .putcCr else if cw.toNat % 256 = 0x0A then .putcLf
       else .putcPrint (BitVec.ofNat 8 cw.toNat))) ∧
  ((List.range 256).filter fun n => (Instr.putcPrint (BitVec.ofNat 8 n)).wellFormed).length = 252

/-- R66, R67: one word of every family, written out from the spec's encoding. -/
def Obligations.WordsOfEveryFamilyDecode : Prop :=
  decode ⟨0b000100000000#12, 200, 0x1F41⟩ = .ok (.wrChar 200 0x1F41#16) ∧
  decode ⟨0b001000000000#12, 30, 0⟩ = .ok (.rdReg 30) ∧
  decode ⟨0b100101111111#12, 0, 0⟩ = .ok .putcDel ∧
  decode ⟨0b100101001000#12, 0, 0⟩ = .ok (.putcPrint 0x48#8) ∧
  decode ⟨0b101100000000#12, 0, 0⟩ = .ok .init ∧
  decode ⟨0b100000000000#12, 0, 0⟩ = .illegal .consoleRead

/-! ### The step and the HOST -/

/-- R54, R113, R130: when the HOST's command decodes to `i` and the step is the HOST's, the step is `exec i`, ENV's turn apart. -/
def Obligations.StepPerformsTheDecodedCommand : Prop :=
  ∀ (s : State) (c : Command) (i : Instr), s.HostNext c → decode c = .ok i →
    step s = exec i { s with env := s.env.tail }

/-- The command that `withFetchWord` places is what the very next step performs (log entry 1). -/
def Obligations.PlacedWordIsPerformedNext : Prop :=
  ∀ (s : State) (nbits w : Nat) (i : Instr), decodeTableWord nbits w = some i →
    step (s.withFetchWord nbits w) = exec i { s.withFetchWord nbits w with env := s.env }

/-- R113, R146: a HOST command has no step while a fault is recorded, is held, changing nothing, while ENGINE is busy, and else is performed
and leaves the HOST's queue, whether it raises or not (log entries 1, 3 and 14). -/
def Obligations.CommandIsStoppedHeldOrPerformed : Prop :=
  ∀ (i : Instr) (s : State),
    (∀ f, s.fault = some f → exec i s = .fault (.stopped f)) ∧
    (s.fault = none → s.engine ≠ .idle → exec i s = .next s) ∧
    (s.Open → ∃ t, exec i s = .next t ∧ t.pending = s.pending.tail)

/-- R124: an ILLEGAL command raises ILLEGAL_COMMAND with its word and writes nothing; while ENGINE is busy it is held first. That a hold is
the state left as it is is the model's choice (log entry 3). -/
def Obligations.IllegalCommandIsHeldThenRaises : Prop :=
  ∀ (c : Command) (why : Illegal) (s : State), decode c = .illegal why →
    (s.HostNext c → ∃ t, step s = .next t ∧
      t = { s with fault := some (.illegalCommand c.cw), pending := t.pending, env := t.env }) ∧
    (s.fault = none → s.engine ≠ .idle → performCommand c s = .next s)

/-- R49: a platform access that is not one whole element has no step. -/
def Obligations.PartialAccessIsRefused : Prop :=
  ∀ (s : State) (sp : Space) (rest : List HostItem), s.Open → s.env = [] → s.pending = .partialAccess sp :: rest →
    step s = .refused (.partialAccess sp)

/-- R120: an M-format command raises BAD_INDEX exactly when its index is at or above its space's count, and then nothing but the fault is
recorded. -/
def Obligations.BadIndexExactlyPastTheCount : Prop :=
  (elementCount .char = Config.charbufCells ∧ elementCount .reg = 31 ∧ elementCount .font = 2048 ∧
    elementCount .fb = Config.fbWords) ∧
  ∀ (i : Instr) (sp : Space) (idx : Nat) (s : State), memoryOperand i = some (sp, idx) → s.Open →
    ∃ t, exec i s = .next t ∧ (t.fault ≠ none ↔ elementCount sp ≤ idx) ∧
      (elementCount sp ≤ idx → t = { s with fault := some (.badIndex sp idx), pending := t.pending })

/-! ### Reads and writes of the four spaces -/

/-- R111: RD.CHAR. That a cell nothing has written is one not listed is the model's choice (log entry 9). -/
def Obligations.RdCharReturnsTheCell : Prop :=
  (∀ idx data, decode ⟨0x000#12, idx, data⟩ = .ok (.rdChar idx)) ∧
  ∀ (s : State) (idx : Nat), s.Open →
    (idx < Config.charbufCells →
      ∃ t, exec (.rdChar idx) s = .next t ∧ t = { s with returned := some (.char (s.cell idx)), pending := t.pending }) ∧
    (Config.charbufCells ≤ idx → Raises (exec (.rdChar idx) s) s (.badIndex .char idx)) ∧
    ((∀ e ∈ s.cb, e.1 ≠ idx) → s.cell idx = Config.cbDraw s.epoch idx)

/-- R112: WR.CHAR, with its frame: the cursor and its registers stay. -/
def Obligations.WrCharWritesOneCell : Prop :=
  (∀ idx data, decode ⟨0x100#12, idx, data⟩ = .ok (.wrChar idx (BitVec.ofNat 16 data))) ∧
  ∀ (s : State) (idx : Nat) (v : CharCell), s.Open →
    (idx < Config.charbufCells → ∃ t, exec (.wrChar idx v) s = .next t ∧
      t = { s with cb := t.cb, pending := t.pending } ∧ ∀ j, t.cell j = if j = idx then v else s.cell j) ∧
    (Config.charbufCells ≤ idx → Raises (exec (.wrChar idx v) s) s (.badIndex .char idx))

/-- R115: RD.REG reads the pending copy. -/
def Obligations.RdRegReturnsThePendingCopy : Prop :=
  (∀ idx data, decode ⟨0x200#12, idx, data⟩ = .ok (.rdReg idx)) ∧
  ∀ s : State, s.Open →
    (∀ r : Reg, ∃ t, exec (.rdReg r.val) s = .next t ∧ t = { s with returned := some (.reg (s.regP r)), pending := t.pending }) ∧
    (∀ idx, 31 ≤ idx → Raises (exec (.rdReg idx) s) s (.badIndex .reg idx))

/-- R116: WR.REG writes the pending copy alone, any value; the next FRAME makes it active. The cursor stays. -/
def Obligations.WrRegWritesThePendingCopy : Prop :=
  (∀ idx data, decode ⟨0x300#12, idx, data⟩ = .ok (.wrReg idx (BitVec.ofNat Config.regW data))) ∧
  ∀ (s : State) (v : RegWord), s.Open →
    (∀ r : Reg, ∃ t, exec (.wrReg r.val v) s = .next t ∧ t = { s with regp := t.regp, pending := t.pending } ∧
      (∀ q, t.regP q = if q = r then v else s.regP q) ∧ (∀ q, t.regA q = s.regA q) ∧ (frameEvent t).regA r = v) ∧
    (∀ idx, 31 ≤ idx → Raises (exec (.wrReg idx v) s) s (.badIndex .reg idx))

/-- R117: RD.FONT; after an INIT, whatever FRAMEs fell in it, it returns the uploaded bytes, byte 2047 0xFF and byte 12 0x00. -/
def Obligations.RdFontReturnsTheByte : Prop :=
  (∀ idx data, decode ⟨0x400#12, idx, data⟩ = .ok (.rdFont idx)) ∧
  (∀ (s : State) (a : Nat), s.Open →
    (a < 2048 → ∃ t, exec (.rdFont a) s = .next t ∧ t = { s with returned := some (.font (s.fontByte a)), pending := t.pending }) ∧
    (2048 ≤ a → Raises (exec (.rdFont a) s) s (.badIndex .font a))) ∧
  ∀ s : State, s.fault = none → s.engine = .step .s1 → s.NoReset →
    ∃ t, InitEnds s t ∧
      (∀ a, a < 2048 → ∃ u, exec (.rdFont a) t = .next u ∧ u.returned = some (.font (uploadedByte Config.glyphRom a))) ∧
      (∃ u, exec (.rdFont 2047) t = .next u ∧ u.returned = some (.font 0xFF#8)) ∧
      ∃ u, exec (.rdFont 12) t = .next u ∧ u.returned = some (.font 0x00#8)

/-- R118: WR.FONT; an INIT issued after the write, whatever FRAMEs fall in it, restores every byte of the font. -/
def Obligations.WrFontWritesOneByte : Prop :=
  (∀ idx data, decode ⟨0x500#12, idx, data⟩ = .ok (.wrFont idx (BitVec.ofNat 8 data))) ∧
  ∀ (s : State) (a : Nat) (v : Byte), s.Open →
    (a < 2048 → ∃ t, exec (.wrFont a v) s = .next t ∧ t = { s with font := t.font, pending := t.pending } ∧
      (∀ j, t.fontByte j = if j = a then v else s.fontByte j) ∧
      (s.NoReset → ∃ u x, exec .init t = .next u ∧ InitEnds u x ∧
        ∀ j, j < 2048 → x.fontByte j = uploadedByte Config.glyphRom j)) ∧
    (2048 ≤ a → Raises (exec (.wrFont a v) s) s (.badIndex .font a))

/-- R119: RD.FB; after an INIT, whatever FRAMEs fell in it, it returns the logo draw, which the model numbers (log entry 11). -/
def Obligations.RdFbReturnsTheWord : Prop :=
  (∀ idx data, decode ⟨0x600#12, idx, data⟩ = .ok (.rdFb idx)) ∧
  (∀ (s : State) (i : Nat), s.Open →
    (i < Config.fbWords →
      ∃ t, exec (.rdFb i) s = .next t ∧ t = { s with returned := some (.fb (s.fbWord i)), pending := t.pending }) ∧
    (Config.fbWords ≤ i → Raises (exec (.rdFb i) s) s (.badIndex .fb i))) ∧
  ∀ s : State, s.fault = none → s.engine = .step .s1 → s.NoReset →
    ∃ t, InitEnds s t ∧
      ∀ i, i < Config.fbWords → ∃ u, exec (.rdFb i) t = .next u ∧ u.returned = some (.fb (Config.logoDraw s.draws i))

/-- R122: WR.FB. -/
def Obligations.WrFbWritesOneWord : Prop :=
  (∀ idx data, decode ⟨0x700#12, idx, data⟩ = .ok (.wrFb idx (BitVec.ofNat Config.fbW data))) ∧
  ∀ (s : State) (i : Nat) (v : FbWord), s.Open →
    (i < Config.fbWords → ∃ t, exec (.wrFb i v) s = .next t ∧ t = { s with fb := t.fb, pending := t.pending } ∧
      ∀ j, t.fbWord j = if j = i then v else s.fbWord j) ∧
    (Config.fbWords ≤ i → Raises (exec (.wrFb i v) s) s (.badIndex .fb i))

/-- R72, R125: `inc.reg` and `dec.reg` wrap modulo 2^REG_W, and a FRAME between the read and the write does not disturb them (R58). -/
def Obligations.IncAndDecRegWrap : Prop :=
  ∀ (s : State) (r : Reg) (steps : Nat), s.Open →
    (s.env = [] ∧ steps = 2) ∨ (s.env = [.pass, .frame] ∧ steps = 3) →
    (s.pending = (incReg r (s.regP r)).map HostItem.command →
      ∃ t, runSteps steps s = .next t ∧ t.fault = none ∧
        t.pending = [] ∧ t.returned = some (.reg (s.regP r)) ∧
        ∀ q, (t.regP q).toNat = if q = r then ((s.regP r).toNat + 1) % 2 ^ Config.regW else (s.regP q).toNat) ∧
    (s.pending = (decReg r (s.regP r)).map HostItem.command →
      ∃ t, runSteps steps s = .next t ∧ t.fault = none ∧
        t.pending = [] ∧ t.returned = some (.reg (s.regP r)) ∧
        ∀ q, (t.regP q).toNat =
          if q = r then ((s.regP r).toNat + (2 ^ Config.regW - 1)) % 2 ^ Config.regW else (s.regP q).toNat)

/-! ### The console -/

/-- R78: PUTC.BS, and PUTC.DEL with it, from every cursor in the grid; the only fault is USE_BEFORE_INIT. -/
def Obligations.BackspaceAndDeleteBlankOneCell : Prop :=
  (∀ idx data, decode ⟨0x908#12, idx, data⟩ = .ok .putcBs ∧ decode ⟨0x97F#12, idx, data⟩ = .ok .putcDel) ∧
  (∀ s : State, s.Open → s.initDone = false →
    Raises (exec .putcBs s) s (.useBeforeInit 0x08#8) ∧ Raises (exec .putcDel s) s (.useBeforeInit 0x7F#8)) ∧
  ∀ s : State, s.Ready → s.InGrid → ∀ i ∈ [Instr.putcBs, Instr.putcDel],
    ∃ t, exec i s = .next t ∧ t.InGrid ∧
      (s.cursor &&& 127 = 0 → PutcLeaves s t s.cursor s.cell) ∧
      (s.cursor &&& 127 ≠ 0 →
        PutcLeaves s t (s.cursor - 1) fun j => if j = s.cursor - 1 then 0x8F20#16 else s.cell j)

/-- R80: PUTC.CR, from every cursor in the grid: no cell is written and it never scrolls; the only fault is USE_BEFORE_INIT. -/
def Obligations.CarriageReturnGoesToRowStart : Prop :=
  (∀ idx data, decode ⟨0x90D#12, idx, data⟩ = .ok .putcCr) ∧
  (∀ s : State, s.Open → s.initDone = false → Raises (exec .putcCr s) s (.useBeforeInit 0x0D#8)) ∧
  ∀ s : State, s.Ready → s.InGrid →
    ∃ t, exec .putcCr s = .next t ∧ t.InGrid ∧ PutcLeaves s t (s.cursor - s.cursor % 128) s.cell

/-- R81: PUTC.LF blanks from the cursor's cell to the end of its row; on the last row it then scrolls. The only fault is USE_BEFORE_INIT. -/
def Obligations.LinefeedBlanksTheRestOfTheRow : Prop :=
  (∀ idx data, decode ⟨0x90A#12, idx, data⟩ = .ok .putcLf) ∧
  (∀ s : State, s.Open → s.initDone = false → Raises (exec .putcLf s) s (.useBeforeInit 0x0A#8)) ∧
  ∀ s : State, s.Ready → s.InGrid →
    ∃ t, exec .putcLf s = .next t ∧ (s.cursor ||| 127) + 1 ≤ Config.cap ∧
      ((s.cursor ||| 127) + 1 < Config.cap →
        PutcLeaves s t ((s.cursor ||| 127) + 1) fun j =>
          if s.cursor ≤ j ∧ j ≤ s.cursor ||| 127 then 0x8F20#16 else s.cell j) ∧
      ((s.cursor ||| 127) + 1 = Config.cap →
        PutcLeaves s t (Config.cap - 128) (scrolled fun j =>
          if s.cursor ≤ j ∧ j ≤ s.cursor ||| 127 then 0x8F20#16 else s.cell j))

/-- R80 to R82: CR then LF blanks the whole row the cursor was on; above the last row it goes one row down, on the last row it scrolls. -/
def Obligations.CrThenLfBlanksTheWholeRow : Prop :=
  ∀ s : State, s.Ready → s.InGrid →
    ∃ t u, exec .putcCr s = .next t ∧ exec .putcLf t = .next u ∧
      ((s.cursor ||| 127) + 1 < Config.cap → u.cursor = (s.cursor ||| 127) + 1 ∧
        ∀ j, u.cell j = if j / 128 = s.cursor / 128 then 0x8F20#16 else s.cell j) ∧
      ((s.cursor ||| 127) + 1 = Config.cap → u.cursor = Config.cap - 128 ∧
        ∀ j, u.cell j = scrolled (fun i => if i / 128 = s.cursor / 128 then 0x8F20#16 else s.cell i) j)

/-- R83, R84: PUTC.PRINT writes the zero-extended byte with attribute 0x0F; in the grid's last cell it then scrolls. The only fault is
USE_BEFORE_INIT. -/
def Obligations.PrintWritesTheGlyphCell : Prop :=
  ∀ b : Byte, (Instr.putcPrint b).wellFormed = true →
    (∀ idx data, decode ⟨putcWord b, idx, data⟩ = .ok (.putcPrint b)) ∧ (putcWord b).toNat = 0x900 + b.toNat ∧
    (∀ s : State, s.Open → s.initDone = false → Raises (exec (.putcPrint b) s) s (.useBeforeInit b)) ∧
    ∀ s : State, s.Ready → s.InGrid →
      ∃ t, exec (.putcPrint b) s = .next t ∧
        (s.cursor + 1 < Config.cap →
          PutcLeaves s t (s.cursor + 1) fun j => if j = s.cursor then BitVec.ofNat 16 (0x0F00 + b.toNat) else s.cell j) ∧
        (s.cursor + 1 = Config.cap →
          PutcLeaves s t (Config.cap - 128) (scrolled fun j =>
            if j = s.cursor then BitVec.ofNat 16 (0x0F00 + b.toNat) else s.cell j))

/-- R85: after the byte's action the scroll fires at CAP alone, moves every grid row up by one, blanks the last and leaves every other
cell; below CAP nothing moves. -/
def Obligations.ScrollMovesEveryRowUp : Prop :=
  ∀ (b : Byte) (s : State), s.Ready → s.InGrid →
    ∃ t, exec (decodePutc b) s = .next t ∧
      (listedAction (Config.cbDraw s.epoch) b s.screen).c ≤ Config.cap ∧
      ((listedAction (Config.cbDraw s.epoch) b s.screen).c < Config.cap →
        t.cursor = (listedAction (Config.cbDraw s.epoch) b s.screen).c ∧
        ∀ j, t.cell j = Store.read (Config.cbDraw s.epoch) (listedAction (Config.cbDraw s.epoch) b s.screen).cb j) ∧
      ((listedAction (Config.cbDraw s.epoch) b s.screen).c = Config.cap →
        t.cursor = Config.cap - 128 ∧
        (∀ j, Config.gridStart ≤ j → j + 128 < Config.cap →
          t.cell j = Store.read (Config.cbDraw s.epoch) (listedAction (Config.cbDraw s.epoch) b s.screen).cb (j + 128)) ∧
        (∀ j, Config.cap - 128 ≤ j → j < Config.cap → t.cell j = 0x8F20#16) ∧
        ∀ j, j < Config.gridStart ∨ Config.cap ≤ j → t.cell j = s.cell j)

/-- R76, R87: a PUTC of any byte is stopped by a recorded fault, held while ENGINE is busy and raises USE_BEFORE_INIT before INIT has
completed; otherwise, for every cursor and screen, it is the listed transition, loops and all. That a hold is the state left as it is is
the model's choice (log entry 3). -/
def Obligations.PutcIsTheListedTransition : Prop :=
  ∀ (b : Byte) (s : State),
    (∀ f, s.fault = some f → exec (decodePutc b) s = .fault (.stopped f)) ∧
    (s.fault = none → s.engine ≠ .idle → exec (decodePutc b) s = .next s) ∧
    (s.Open → s.initDone = false → Raises (exec (decodePutc b) s) s (.useBeforeInit b)) ∧
    (s.Ready → ∃ t, exec (decodePutc b) s = .next t ∧
      PutcLeaves s t (listedPutc ⟨Config.gridStart, Config.cap⟩ (Config.cbDraw s.epoch) b s.screen).c
        (Store.read (Config.cbDraw s.epoch) (listedPutc ⟨Config.gridStart, Config.cap⟩ (Config.cbDraw s.epoch) b s.screen).cb))

/-- R41 to R43: an M-format command shows the HOST nothing of the cursor, `initDone` or the active registers: two states that differ in
those alone answer it with the same value or the same fault. -/
def Obligations.HiddenStateIsNotReadable : Prop :=
  ∀ (i : Instr) (s u : State), memoryOperand i ≠ none → s.Open →
    u = { s with cursor := u.cursor, initDone := u.initDone, rega := u.rega } →
    ∃ t v, exec i s = .next t ∧ exec i u = .next v ∧ t.returned = v.returned ∧ t.fault = v.fault

/-- R86: after every performed PUTC the cursor registers hold the cursor, and the next FRAME makes them active; from a cursor in the grid
no bit of it is lost. -/
def Obligations.CursorRegistersFollowTheCursor : Prop :=
  ∀ (b : Byte) (s : State), s.Ready →
    ∃ t, exec (decodePutc b) s = .next t ∧ t.regP regXcur = toRegWord (t.cursor % 128) ∧
      t.regP regYcur = toRegWord (t.cursor / 128) ∧ (frameEvent t).regA regXcur = t.regP regXcur ∧
      (frameEvent t).regA regYcur = t.regP regYcur ∧
      (s.InGrid → (t.regP regXcur).toNat = t.cursor % 128 ∧ (t.regP regYcur).toNat = t.cursor / 128)

/-- R88: a performed PUTC keeps the cursor in the grid. -/
def Obligations.PutcKeepsTheCursorInTheGrid : Prop :=
  ∀ (i : Instr) (s t : State), isPutc i = true → s.Ready → s.InGrid → exec i s = .next t → t.InGrid

/-- R89, R90: a PUTC writes cells of the grid alone, no register but XCUR and YCUR, and can raise USE_BEFORE_INIT alone. -/
def Obligations.PutcLeavesTheRestAlone : Prop :=
  ∀ (i : Instr) (s : State), isPutc i = true → s.Open → s.InGrid →
    ∃ t, exec i s = .next t ∧
      t = { s with cursor := t.cursor, cb := t.cb, regp := t.regp, fault := t.fault, pending := t.pending } ∧
      (∀ j, j < Config.gridStart ∨ Config.cap ≤ j → t.cell j = s.cell j) ∧
      (∀ q, q ≠ regXcur → q ≠ regYcur → t.regP q = s.regP q) ∧
      (t.fault = none ∨ (s.initDone = false ∧ ∃ b, t.fault = some (.useBeforeInit b)))

/-! ### INIT and its ten steps -/

/-- R91: INIT starts the sequence, whatever `initDone` is, and leaves it; it is stopped by a fault and held while one runs. That a hold is
the state left as it is is the model's choice (log entry 3). -/
def Obligations.InitStartsTheEngine : Prop :=
  (∀ idx data, decode ⟨0xB00#12, idx, data⟩ = .ok .init) ∧
  ∀ s : State,
    (∀ f, s.fault = some f → exec .init s = .fault (.stopped f)) ∧
    (s.fault = none → s.engine ≠ .idle → exec .init s = .next s) ∧
    (s.Open → ∃ t, exec .init s = .next t ∧ t = { s with engine := .step .s1, pending := t.pending })

/-- R92: ENGINE steps through STEP(1) to STEP(10) in order, none skipped, and then is IDLE; the HOST's commands wait. -/
def Obligations.EngineRunsTheStepsInOrder : Prop :=
  ∀ (s : State) (k : InitStep), s.EngineNext k →
    ∃ t, step s = .next t ∧ t.pending = s.pending ∧ t.env = s.env.tail ∧ t.fault = none ∧
      stepsLeft t.engine + 1 = stepsLeft s.engine

/-- R95: step 1. -/
def Obligations.InitStep1SetsTheCursor : Prop :=
  ∀ s : State, s.EngineNext .s1 →
    ∃ t, step s = .next t ∧ t = { s with cursor := Config.gridStart, engine := .step .s2, env := t.env }

/-- R96: step 2. -/
def Obligations.InitStep2SetsTheCursorRegisters : Prop :=
  ∀ s : State, s.EngineNext .s2 →
    ∃ t, step s = .next t ∧ t = { s with regp := t.regp, engine := .step .s3, env := t.env } ∧
      t.regP regCursv = Config.cursvInit ∧ t.regP regXcur = toRegWord (s.cursor % 128) ∧
      t.regP regYcur = toRegWord (s.cursor / 128) ∧
      (s.cursor = Config.gridStart → (t.regP regXcur).toNat = 0 ∧ (t.regP regYcur).toNat = Config.gridStart / 128) ∧
      ∀ q, q ∉ [regCursv, regXcur, regYcur] → t.regP q = s.regP q

/-- R97: step 3; VSYN is not written. -/
def Obligations.InitStep3SetsTheTiming : Prop :=
  ∀ s : State, s.EngineNext .s3 →
    ∃ t, step s = .next t ∧ t = { s with regp := t.regp, engine := .step .s4, env := t.env } ∧
      t.regP regHstart = Config.hstartInit ∧ t.regP regHsyn = Config.hsynInit ∧ t.regP regHstop = Config.hstopInit ∧
      t.regP regVstart = Config.vstartInit ∧ t.regP regVstop = Config.vstopInit ∧ t.regP regVsyn = s.regP regVsyn ∧
      ∀ q, q ∉ [regHstart, regHsyn, regHstop, regVstart, regVstop] → t.regP q = s.regP q

/-- R98: step 4. -/
def Obligations.InitStep4SetsThePixelRegion : Prop :=
  ∀ s : State, s.EngineNext .s4 →
    ∃ t, step s = .next t ∧ t = { s with regp := t.regp, engine := .step .s5, env := t.env } ∧
      t.regP regPstart = Config.pstartInit ∧ t.regP regPstop = Config.pstopInit ∧ t.regP regXscale = Config.xscaleInit ∧
      t.regP regYscale = Config.yscaleInit ∧ t.regP regFlimit = Config.flimitInit ∧
      ∀ q, q ∉ [regPstart, regPstop, regXscale, regYscale, regFlimit] → t.regP q = s.regP q

/-- R99: step 5. -/
def Obligations.InitStep5LoadsThePalette : Prop :=
  ∀ s : State, s.EngineNext .s5 →
    ∃ t, step s = .next t ∧ t = { s with regp := t.regp, engine := .step .s6, env := t.env } ∧
      (∀ i : Fin 16, t.regP (regPal i) = Config.paletteInit i.val) ∧
      ∀ q, (∀ i : Fin 16, q ≠ regPal i) → t.regP q = s.regP q

/-- R100, R101: step 6, for the 127 glyphs of the ROM and the block glyph. -/
def Obligations.InitStep6UploadsTheFont : Prop :=
  ∀ s : State, s.EngineNext .s6 →
    ∃ t, step s = .next t ∧ t = { s with font := t.font, engine := .step .s7, env := t.env } ∧
      (∀ c r, c ≤ 126 → r ≤ 11 → t.fontByte (c * 16 + r) = (Config.glyphRom c r &&& 0xFC#8) >>> 1) ∧
      (∀ c r, c ≤ 126 → 12 ≤ r → r ≤ 15 → t.fontByte (c * 16 + r) = 0x00#8) ∧
      ∀ r, r ≤ 15 → t.fontByte (127 * 16 + r) = 0xFF#8

/-- R102: step 7. -/
def Obligations.InitStep7ClearsTheFramebuffer : Prop :=
  ∀ s : State, s.EngineNext .s7 →
    ∃ t, step s = .next t ∧ t = { s with fb := t.fb, engine := .step .s8, env := t.env } ∧
      ∀ i, i < Config.fbWords → t.fbWord i = 0

/-- R103, R104: step 8, MODE = 2 and the three zones of the status bar over rows 0 to 31 alone. -/
def Obligations.InitStep8PaintsTheStatusBar : Prop :=
  ∀ s : State, s.EngineNext .s8 →
    ∃ t, step s = .next t ∧ t = { s with regp := t.regp, cb := t.cb, engine := .step .s9, env := t.env } ∧
      (∀ q, t.regP q = if q = regMode then toRegWord 2 else s.regP q) ∧
      (∀ row col, row ≤ 31 → col ≤ 107 → t.cell (row * 128 + col) = Config.statusZ1 row) ∧
      (∀ row col, row ≤ 31 → 108 ≤ col → col ≤ 117 → t.cell (row * 128 + col) = Config.statusZ2) ∧
      (∀ row col, row ≤ 31 → 118 ≤ col → col ≤ 127 →
        (t.cell (row * 128 + col)).toNat = (Config.statusZ3Attr row).toNat * 256 + 0x80) ∧
      ∀ j, 4096 ≤ j → t.cell j = s.cell j

/-- R105: step 9 leaves a draw in every framebuffer word and writes nothing else; the draws hold for every value. -/
def Obligations.InitStep9DrawsTheLogo : Prop :=
  ∀ s : State, s.EngineNext .s9 →
    ∃ t, step s = .next t ∧ t = { s with fb := t.fb, draws := t.draws, engine := .step .s10, env := t.env } ∧
      ∀ i, i < Config.fbWords → t.fbWord i = Config.logoDraw s.draws i

/-- R106: step 10; the next FRAME makes mode 1 active. -/
def Obligations.InitStep10GoesActive : Prop :=
  ∀ s : State, s.EngineNext .s10 →
    ∃ t, step s = .next t ∧ t = { s with regp := t.regp, initDone := true, engine := .idle, env := t.env } ∧
      (∀ q, t.regP q = if q = regMode then toRegWord 1 else s.regP q) ∧ (frameEvent t).regA regMode = toRegWord 1

/-- R109: what ten ENGINE steps with no FRAME between them leave; the logo draw is numbered by the model (log entry 11). -/
def Obligations.WholeInitLeavesTheKnownState : Prop :=
  ∀ s : State, s.fault = none → s.engine = .step .s1 → s.env = [] →
    ∃ t, runSteps 10 s = .next t ∧
      t = { s with cursor := Config.gridStart, initDone := true, engine := .idle, regp := t.regp, cb := t.cb, font := t.font,
                   fb := t.fb, draws := t.draws } ∧
      t.regP regCursv = Config.cursvInit ∧ (t.regP regXcur).toNat = 0 ∧ (t.regP regYcur).toNat = Config.gridStart / 128 ∧
      t.regP regHstart = Config.hstartInit ∧ t.regP regHsyn = Config.hsynInit ∧ t.regP regHstop = Config.hstopInit ∧
      t.regP regVstart = Config.vstartInit ∧ t.regP regVsyn = s.regP regVsyn ∧ t.regP regVstop = Config.vstopInit ∧
      t.regP regPstart = Config.pstartInit ∧ t.regP regPstop = Config.pstopInit ∧ t.regP regXscale = Config.xscaleInit ∧
      t.regP regYscale = Config.yscaleInit ∧ t.regP regFlimit = Config.flimitInit ∧
      (∀ i : Fin 16, t.regP (regPal i) = Config.paletteInit i.val) ∧ (t.regP regMode).toNat = 1 ∧
      (∀ a, a < 2048 → t.fontByte a = uploadedByte Config.glyphRom a) ∧
      (∀ j, t.cell j = if j < 4096 then statusCell (j / 128) (j % 128) else s.cell j) ∧
      ∀ i, i < Config.fbWords → t.fbWord i = Config.logoDraw s.draws i

/-- R108: the upload gives the same 2048 bytes whatever the font held, and a second upload changes none. -/
def Obligations.FontUploadIsIdempotent : Prop :=
  ∀ s u : State, s.EngineNext .s6 → u.EngineNext .s6 →
    ∃ t v, step s = .next t ∧ step u = .next v ∧
      ∀ a, a < 2048 → t.fontByte a = v.fontByte a ∧ (engineStep .s6 t).fontByte a = t.fontByte a

/-- R110: two INITs, from states that may differ in every register, font byte and framebuffer word and in the cells of rows 0 to 31, leave
the same cursor, the same registers but VSYN, the same font and the same rows 0 to 31. -/
def Obligations.SecondInitRestoresWhatInitWrites : Prop :=
  ∀ s u : State, s.fault = none → s.engine = .step .s1 → s.env = [] → u.fault = none → u.engine = .step .s1 → u.env = [] →
    ∃ t v, runSteps 10 s = .next t ∧
      runSteps 10 u = .next v ∧
      t.cursor = v.cursor ∧ (∀ q, q ≠ regVsyn → t.regP q = v.regP q) ∧ (∀ a, a < 2048 → t.fontByte a = v.fontByte a) ∧
      ∀ j, j < 4096 → t.cell j = v.cell j

/-- R146: whatever FRAMEs ENV raises, a busy ENGINE comes to IDLE with INIT complete within its ten steps and those FRAMEs, and until
then no command of the HOST is performed. -/
def Obligations.HoldEndsWithinTenEngineSteps : Prop :=
  ∀ s : State, s.fault = none → s.engine ≠ .idle → s.NoReset →
    ∃ k t, k ≤ stepsLeft s.engine + s.env.length ∧
      runSteps k s = .next t ∧ t.engine = .idle ∧ t.initDone = true ∧
      t.fault = none ∧ t.pending = s.pending

/-! ### FRAME, reset, faults and runs -/

/-- R121: FRAME copies every pending register to its active copy and changes nothing else, busy ENGINE or not. -/
def Obligations.FrameLatchesEveryRegister : Prop :=
  ∀ (s : State) (rest : List EnvTurn), s.env = .frame :: rest →
    (s.fault = none → ∃ t, step s = .next t ∧ t = { s with rega := t.rega, env := t.env } ∧ ∀ r, t.regA r = s.regP r) ∧
    ∀ f, s.fault = some f → step s = .fault (.stopped f)

/-- R24, R55: an active register changes only at a FRAME or a reset. -/
def Obligations.ActiveRegistersChangeOnlyAtFrame : Prop :=
  ∀ s t : State, step s = .next t → s.frameNext = false → s.resetNext = false → ∀ r, t.regA r = s.regA r

/-- R17: a step changes the cursor only if it performs a PUTC, is INIT step 1, or is a reset. -/
def Obligations.CursorHasTwoWriters : Prop :=
  ∀ s t : State, step s = .next t → t.cursor ≠ s.cursor →
    (∃ c i, s.HostNext c ∧ decode c = .ok i ∧ isPutc i = true) ∨ s.EngineNext .s1 ∨ s.resetNext = true

/-- R28: no step writes VSYN but a host's WR.REG of register 7 and a reset. -/
def Obligations.VsynIsTheHostsAlone : Prop :=
  ∀ s t : State, step s = .next t → t.regP regVsyn ≠ s.regP regVsyn →
    (∃ c v, s.HostNext c ∧ decode c = .ok (.wrReg 7 v)) ∨ s.resetNext = true

/-- R21: with a fault recorded no agent has a step, and only a reset clears it. -/
def Obligations.FaultIsSticky : Prop :=
  ∀ (s : State) (f : FaultInfo), s.fault = some f →
    (s.resetNext = false → step s = .fault (.stopped f)) ∧
    (s.resetNext = true → ∃ t, step s = .next t ∧ t.fault = none)

/-- R19: `initDone` becomes true only at INIT step 10, and false only at a reset. -/
def Obligations.InitDoneComesFromStep10 : Prop :=
  ∀ s t : State, step s = .next t →
    (s.initDone = false → t.initDone = true → s.EngineNext .s10) ∧
    (s.initDone = true → t.initDone = false → s.resetNext = true)

/-- R44: reset, in a run too and from a faulted state too; every element the spec gives no value is a draw. -/
def Obligations.ResetClearsAndDraws : Prop :=
  ∀ (s : State) (rest : List EnvTurn), s.env = .reset :: rest →
    ∃ t, step s = .next t ∧ t.initDone = false ∧ t.engine = .idle ∧ t.fault = none ∧
      t.cursor = Config.cursorDraw t.epoch ∧ (∀ r, t.regP r = Config.regpDraw t.epoch r) ∧
      (∀ r, t.regA r = Config.regaDraw t.epoch r) ∧ (∀ i, t.cell i = Config.cbDraw t.epoch i) ∧
      (∀ a, t.fontByte a = Config.fontDraw t.epoch a) ∧ ∀ i, t.fbWord i = Config.fbDraw t.epoch i

/-- R44: the state right after reset. -/
def Obligations.ResetStateHoldsTheSpecsValues : Prop :=
  State.reset.initDone = false ∧ State.reset.engine = .idle ∧ State.reset.fault = none ∧
  State.reset.cursor = Config.cursorDraw State.reset.epoch ∧
  (∀ r, State.reset.regP r = Config.regpDraw State.reset.epoch r) ∧
  (∀ r, State.reset.regA r = Config.regaDraw State.reset.epoch r) ∧
  (∀ i, State.reset.cell i = Config.cbDraw State.reset.epoch i) ∧
  (∀ a, State.reset.fontByte a = Config.fontDraw State.reset.epoch a) ∧
  ∀ i, State.reset.fbWord i = Config.fbDraw State.reset.epoch i

/-- R142, R156: at the end of a run, and after reset, the only step is FRAME, and it changes the active registers alone. -/
def Obligations.FinishedMachineOnlyLatches : Prop :=
  ∀ s : State, s.Finished → s.env = [] →
    ∃ t, step s = .next t ∧ t = { s with rega := t.rega } ∧ t.Finished ∧ ∀ r, t.regA r = s.regP r

/-- R123, in this model's schedules (log entry 18): within the work that is left, either the next step is a FRAME or no agent has one. -/
def Obligations.FrameIsNeverPutOffForever : Prop :=
  ∀ s : State, ∃ k t, k ≤ s.workLeft ∧ runSteps k s = .next t ∧
    (t.frameNext = true ∨ ∀ u, step t ≠ .next u)

/-- R17, R88 and log entry 9: every step keeps the memories canonical and the cursor in the grid. -/
def Obligations.EveryStepKeepsTheInvariant : Prop :=
  ∀ s t : State, s.Inv → step s = .next t → t.Inv

/-- The invariant holds right after reset. -/
def Obligations.ResetMeetsTheInvariant : Prop := State.reset.Inv
end

