-- ==== Sys2Proof/Laws/Config.lean ====
section
/-!
SUPPORT. The geometry of Config meets the constraints of spec/00_scope.md R6, and every geometry that meets them is one the shapes of
Config reach, so nothing beyond R6 is assumed of it.
-/

namespace Sys2Proof.Config

theorem gridStart_mod : gridStart % 128 = 0 := by simp [gridStart, gridStartOf]

theorem cap_mod : cap % 128 = 0 := by simp [cap, capOf]

theorem gridStart_row_le_cap : gridStart + 128 ≤ cap := by
  simp only [gridStart, cap, gridStartOf, capOf, Nat.add_mul]; omega

theorem cap_le_charbufCells : cap ≤ charbufCells := by
  simp only [charbufCells, charbufCellsOf]; omega

theorem statusCells_le_charbufCells : statusCells ≤ charbufCells := by
  simp only [charbufCells, charbufCellsOf, statusCells]; omega

theorem eight_le_regW : 8 ≤ regW := by simp only [regW, regWOf]; omega

theorem rows_lt_two_pow_regW : cap / 128 < 2 ^ regW :=
  Nat.lt_log2_self.trans_le (Nat.pow_le_pow_right (by decide) (by simp only [regW, regWOf]; omega))

theorem one_le_fbWords : 1 ≤ fbWords := by simp only [fbWords, fbWordsOf]; omega

/-- Every grid and buffer size within R6's constraints is reached. -/
theorem geometry_reached {start c cells : Nat} (hs : start % 128 = 0) (hc : c % 128 = 0) (hrow : start + 128 ≤ c)
    (hcap : c ≤ cells) (hstatus : 4096 ≤ cells) :
    ∃ row rows more, start = gridStartOf row ∧ c = capOf row rows ∧ cells = charbufCellsOf c more := by
  refine ⟨start / 128, (c - start) / 128 - 1, cells - max c 4096, ?_, ?_, ?_⟩ <;>
    simp only [gridStartOf, capOf, charbufCellsOf] <;> omega

/-- Every register width within R6's constraints is reached. -/
theorem regW_reached {c w : Nat} (hc : c / 128 ≠ 0) (h8 : 8 ≤ w) (hw : c / 128 < 2 ^ w) : ∃ more, w = regWOf c more :=
  ⟨w - max 8 (Nat.log2 (c / 128) + 1), by
    have := (Nat.log2_lt hc).2 hw
    simp only [regWOf]; omega⟩

end Sys2Proof.Config
end

