-- ==== Sys2Proof/Laws/State.lean ====
section
/-!
SUPPORT. One lemma for each field of `State` under each update, so that no later proof unfolds a record update.
-/

namespace Sys2Proof.Machine

variable (s : State)

/-! ### State.retire -/

@[simp] theorem State.retire_cursor : s.retire.cursor = s.cursor := rfl
@[simp] theorem State.retire_initDone : s.retire.initDone = s.initDone := rfl
@[simp] theorem State.retire_engine : s.retire.engine = s.engine := rfl
@[simp] theorem State.retire_fault : s.retire.fault = s.fault := rfl
@[simp] theorem State.retire_regp : s.retire.regp = s.regp := rfl
@[simp] theorem State.retire_rega : s.retire.rega = s.rega := rfl
@[simp] theorem State.retire_cb : s.retire.cb = s.cb := rfl
@[simp] theorem State.retire_font : s.retire.font = s.font := rfl
@[simp] theorem State.retire_fb : s.retire.fb = s.fb := rfl
@[simp] theorem State.retire_returned : s.retire.returned = s.returned := rfl
@[simp] theorem State.retire_pending : s.retire.pending = s.pending.tail := rfl
@[simp] theorem State.retire_env : s.retire.env = s.env := rfl
@[simp] theorem State.retire_epoch : s.retire.epoch = s.epoch := rfl
@[simp] theorem State.retire_draws : s.retire.draws = s.draws := rfl

/-! ### State.raise -/

@[simp] theorem State.raise_cursor (f : FaultInfo) : (s.raise f).cursor = s.cursor := rfl
@[simp] theorem State.raise_initDone (f : FaultInfo) : (s.raise f).initDone = s.initDone := rfl
@[simp] theorem State.raise_engine (f : FaultInfo) : (s.raise f).engine = s.engine := rfl
@[simp] theorem State.raise_fault (f : FaultInfo) : (s.raise f).fault = some f := rfl
@[simp] theorem State.raise_regp (f : FaultInfo) : (s.raise f).regp = s.regp := rfl
@[simp] theorem State.raise_rega (f : FaultInfo) : (s.raise f).rega = s.rega := rfl
@[simp] theorem State.raise_cb (f : FaultInfo) : (s.raise f).cb = s.cb := rfl
@[simp] theorem State.raise_font (f : FaultInfo) : (s.raise f).font = s.font := rfl
@[simp] theorem State.raise_fb (f : FaultInfo) : (s.raise f).fb = s.fb := rfl
@[simp] theorem State.raise_returned (f : FaultInfo) : (s.raise f).returned = s.returned := rfl
@[simp] theorem State.raise_pending (f : FaultInfo) : (s.raise f).pending = s.pending := rfl
@[simp] theorem State.raise_env (f : FaultInfo) : (s.raise f).env = s.env := rfl
@[simp] theorem State.raise_epoch (f : FaultInfo) : (s.raise f).epoch = s.epoch := rfl
@[simp] theorem State.raise_draws (f : FaultInfo) : (s.raise f).draws = s.draws := rfl

/-! ### State.reply -/

@[simp] theorem State.reply_cursor (v : Reply) : (s.reply v).cursor = s.cursor := rfl
@[simp] theorem State.reply_initDone (v : Reply) : (s.reply v).initDone = s.initDone := rfl
@[simp] theorem State.reply_engine (v : Reply) : (s.reply v).engine = s.engine := rfl
@[simp] theorem State.reply_fault (v : Reply) : (s.reply v).fault = s.fault := rfl
@[simp] theorem State.reply_regp (v : Reply) : (s.reply v).regp = s.regp := rfl
@[simp] theorem State.reply_rega (v : Reply) : (s.reply v).rega = s.rega := rfl
@[simp] theorem State.reply_cb (v : Reply) : (s.reply v).cb = s.cb := rfl
@[simp] theorem State.reply_font (v : Reply) : (s.reply v).font = s.font := rfl
@[simp] theorem State.reply_fb (v : Reply) : (s.reply v).fb = s.fb := rfl
@[simp] theorem State.reply_returned (v : Reply) : (s.reply v).returned = some v := rfl
@[simp] theorem State.reply_pending (v : Reply) : (s.reply v).pending = s.pending := rfl
@[simp] theorem State.reply_env (v : Reply) : (s.reply v).env = s.env := rfl
@[simp] theorem State.reply_epoch (v : Reply) : (s.reply v).epoch = s.epoch := rfl
@[simp] theorem State.reply_draws (v : Reply) : (s.reply v).draws = s.draws := rfl

/-! ### State.setRegs -/

@[simp] theorem State.setRegs_cursor (v : Reg → Option RegWord) : (s.setRegs v).cursor = s.cursor := rfl
@[simp] theorem State.setRegs_initDone (v : Reg → Option RegWord) : (s.setRegs v).initDone = s.initDone := rfl
@[simp] theorem State.setRegs_engine (v : Reg → Option RegWord) : (s.setRegs v).engine = s.engine := rfl
@[simp] theorem State.setRegs_fault (v : Reg → Option RegWord) : (s.setRegs v).fault = s.fault := rfl
@[simp] theorem State.setRegs_regp (v : Reg → Option RegWord) : (s.setRegs v).regp = regFileOf fun r => (v r).getD (s.regP r) := rfl
@[simp] theorem State.setRegs_rega (v : Reg → Option RegWord) : (s.setRegs v).rega = s.rega := rfl
@[simp] theorem State.setRegs_cb (v : Reg → Option RegWord) : (s.setRegs v).cb = s.cb := rfl
@[simp] theorem State.setRegs_font (v : Reg → Option RegWord) : (s.setRegs v).font = s.font := rfl
@[simp] theorem State.setRegs_fb (v : Reg → Option RegWord) : (s.setRegs v).fb = s.fb := rfl
@[simp] theorem State.setRegs_returned (v : Reg → Option RegWord) : (s.setRegs v).returned = s.returned := rfl
@[simp] theorem State.setRegs_pending (v : Reg → Option RegWord) : (s.setRegs v).pending = s.pending := rfl
@[simp] theorem State.setRegs_env (v : Reg → Option RegWord) : (s.setRegs v).env = s.env := rfl
@[simp] theorem State.setRegs_epoch (v : Reg → Option RegWord) : (s.setRegs v).epoch = s.epoch := rfl
@[simp] theorem State.setRegs_draws (v : Reg → Option RegWord) : (s.setRegs v).draws = s.draws := rfl

/-! ### State.setReg -/

@[simp] theorem State.setReg_cursor (r : Reg) (v : RegWord) : (s.setReg r v).cursor = s.cursor := rfl
@[simp] theorem State.setReg_initDone (r : Reg) (v : RegWord) : (s.setReg r v).initDone = s.initDone := rfl
@[simp] theorem State.setReg_engine (r : Reg) (v : RegWord) : (s.setReg r v).engine = s.engine := rfl
@[simp] theorem State.setReg_fault (r : Reg) (v : RegWord) : (s.setReg r v).fault = s.fault := rfl
@[simp] theorem State.setReg_rega (r : Reg) (v : RegWord) : (s.setReg r v).rega = s.rega := rfl
@[simp] theorem State.setReg_cb (r : Reg) (v : RegWord) : (s.setReg r v).cb = s.cb := rfl
@[simp] theorem State.setReg_font (r : Reg) (v : RegWord) : (s.setReg r v).font = s.font := rfl
@[simp] theorem State.setReg_fb (r : Reg) (v : RegWord) : (s.setReg r v).fb = s.fb := rfl
@[simp] theorem State.setReg_returned (r : Reg) (v : RegWord) : (s.setReg r v).returned = s.returned := rfl
@[simp] theorem State.setReg_pending (r : Reg) (v : RegWord) : (s.setReg r v).pending = s.pending := rfl
@[simp] theorem State.setReg_env (r : Reg) (v : RegWord) : (s.setReg r v).env = s.env := rfl
@[simp] theorem State.setReg_epoch (r : Reg) (v : RegWord) : (s.setReg r v).epoch = s.epoch := rfl
@[simp] theorem State.setReg_draws (r : Reg) (v : RegWord) : (s.setReg r v).draws = s.draws := rfl

/-! ### State.fillCells -/

@[simp] theorem State.fillCells_cursor (a n : Nat) (f : Nat → CharCell) : (s.fillCells a n f).cursor = s.cursor := rfl
@[simp] theorem State.fillCells_initDone (a n : Nat) (f : Nat → CharCell) : (s.fillCells a n f).initDone = s.initDone := rfl
@[simp] theorem State.fillCells_engine (a n : Nat) (f : Nat → CharCell) : (s.fillCells a n f).engine = s.engine := rfl
@[simp] theorem State.fillCells_fault (a n : Nat) (f : Nat → CharCell) : (s.fillCells a n f).fault = s.fault := rfl
@[simp] theorem State.fillCells_regp (a n : Nat) (f : Nat → CharCell) : (s.fillCells a n f).regp = s.regp := rfl
@[simp] theorem State.fillCells_rega (a n : Nat) (f : Nat → CharCell) : (s.fillCells a n f).rega = s.rega := rfl
@[simp] theorem State.fillCells_cb (a n : Nat) (f : Nat → CharCell) : (s.fillCells a n f).cb = Store.fill (Config.cbDraw s.epoch) a n f s.cb := rfl
@[simp] theorem State.fillCells_font (a n : Nat) (f : Nat → CharCell) : (s.fillCells a n f).font = s.font := rfl
@[simp] theorem State.fillCells_fb (a n : Nat) (f : Nat → CharCell) : (s.fillCells a n f).fb = s.fb := rfl
@[simp] theorem State.fillCells_returned (a n : Nat) (f : Nat → CharCell) : (s.fillCells a n f).returned = s.returned := rfl
@[simp] theorem State.fillCells_pending (a n : Nat) (f : Nat → CharCell) : (s.fillCells a n f).pending = s.pending := rfl
@[simp] theorem State.fillCells_env (a n : Nat) (f : Nat → CharCell) : (s.fillCells a n f).env = s.env := rfl
@[simp] theorem State.fillCells_epoch (a n : Nat) (f : Nat → CharCell) : (s.fillCells a n f).epoch = s.epoch := rfl
@[simp] theorem State.fillCells_draws (a n : Nat) (f : Nat → CharCell) : (s.fillCells a n f).draws = s.draws := rfl

/-! ### State.fillFont -/

@[simp] theorem State.fillFont_cursor (a n : Nat) (f : Nat → Byte) : (s.fillFont a n f).cursor = s.cursor := rfl
@[simp] theorem State.fillFont_initDone (a n : Nat) (f : Nat → Byte) : (s.fillFont a n f).initDone = s.initDone := rfl
@[simp] theorem State.fillFont_engine (a n : Nat) (f : Nat → Byte) : (s.fillFont a n f).engine = s.engine := rfl
@[simp] theorem State.fillFont_fault (a n : Nat) (f : Nat → Byte) : (s.fillFont a n f).fault = s.fault := rfl
@[simp] theorem State.fillFont_regp (a n : Nat) (f : Nat → Byte) : (s.fillFont a n f).regp = s.regp := rfl
@[simp] theorem State.fillFont_rega (a n : Nat) (f : Nat → Byte) : (s.fillFont a n f).rega = s.rega := rfl
@[simp] theorem State.fillFont_cb (a n : Nat) (f : Nat → Byte) : (s.fillFont a n f).cb = s.cb := rfl
@[simp] theorem State.fillFont_font (a n : Nat) (f : Nat → Byte) : (s.fillFont a n f).font = Store.fill (Config.fontDraw s.epoch) a n f s.font := rfl
@[simp] theorem State.fillFont_fb (a n : Nat) (f : Nat → Byte) : (s.fillFont a n f).fb = s.fb := rfl
@[simp] theorem State.fillFont_returned (a n : Nat) (f : Nat → Byte) : (s.fillFont a n f).returned = s.returned := rfl
@[simp] theorem State.fillFont_pending (a n : Nat) (f : Nat → Byte) : (s.fillFont a n f).pending = s.pending := rfl
@[simp] theorem State.fillFont_env (a n : Nat) (f : Nat → Byte) : (s.fillFont a n f).env = s.env := rfl
@[simp] theorem State.fillFont_epoch (a n : Nat) (f : Nat → Byte) : (s.fillFont a n f).epoch = s.epoch := rfl
@[simp] theorem State.fillFont_draws (a n : Nat) (f : Nat → Byte) : (s.fillFont a n f).draws = s.draws := rfl

/-! ### State.fillFb -/

@[simp] theorem State.fillFb_cursor (a n : Nat) (f : Nat → FbWord) : (s.fillFb a n f).cursor = s.cursor := rfl
@[simp] theorem State.fillFb_initDone (a n : Nat) (f : Nat → FbWord) : (s.fillFb a n f).initDone = s.initDone := rfl
@[simp] theorem State.fillFb_engine (a n : Nat) (f : Nat → FbWord) : (s.fillFb a n f).engine = s.engine := rfl
@[simp] theorem State.fillFb_fault (a n : Nat) (f : Nat → FbWord) : (s.fillFb a n f).fault = s.fault := rfl
@[simp] theorem State.fillFb_regp (a n : Nat) (f : Nat → FbWord) : (s.fillFb a n f).regp = s.regp := rfl
@[simp] theorem State.fillFb_rega (a n : Nat) (f : Nat → FbWord) : (s.fillFb a n f).rega = s.rega := rfl
@[simp] theorem State.fillFb_cb (a n : Nat) (f : Nat → FbWord) : (s.fillFb a n f).cb = s.cb := rfl
@[simp] theorem State.fillFb_font (a n : Nat) (f : Nat → FbWord) : (s.fillFb a n f).font = s.font := rfl
@[simp] theorem State.fillFb_fb (a n : Nat) (f : Nat → FbWord) : (s.fillFb a n f).fb = Store.fill (Config.fbDraw s.epoch) a n f s.fb := rfl
@[simp] theorem State.fillFb_returned (a n : Nat) (f : Nat → FbWord) : (s.fillFb a n f).returned = s.returned := rfl
@[simp] theorem State.fillFb_pending (a n : Nat) (f : Nat → FbWord) : (s.fillFb a n f).pending = s.pending := rfl
@[simp] theorem State.fillFb_env (a n : Nat) (f : Nat → FbWord) : (s.fillFb a n f).env = s.env := rfl
@[simp] theorem State.fillFb_epoch (a n : Nat) (f : Nat → FbWord) : (s.fillFb a n f).epoch = s.epoch := rfl
@[simp] theorem State.fillFb_draws (a n : Nat) (f : Nat → FbWord) : (s.fillFb a n f).draws = s.draws := rfl

/-! ### State.setCell -/

@[simp] theorem State.setCell_cursor (i : Nat) (v : CharCell) : (s.setCell i v).cursor = s.cursor := rfl
@[simp] theorem State.setCell_initDone (i : Nat) (v : CharCell) : (s.setCell i v).initDone = s.initDone := rfl
@[simp] theorem State.setCell_engine (i : Nat) (v : CharCell) : (s.setCell i v).engine = s.engine := rfl
@[simp] theorem State.setCell_fault (i : Nat) (v : CharCell) : (s.setCell i v).fault = s.fault := rfl
@[simp] theorem State.setCell_regp (i : Nat) (v : CharCell) : (s.setCell i v).regp = s.regp := rfl
@[simp] theorem State.setCell_rega (i : Nat) (v : CharCell) : (s.setCell i v).rega = s.rega := rfl
@[simp] theorem State.setCell_cb (i : Nat) (v : CharCell) : (s.setCell i v).cb = Store.write (Config.cbDraw s.epoch) i v s.cb := rfl
@[simp] theorem State.setCell_font (i : Nat) (v : CharCell) : (s.setCell i v).font = s.font := rfl
@[simp] theorem State.setCell_fb (i : Nat) (v : CharCell) : (s.setCell i v).fb = s.fb := rfl
@[simp] theorem State.setCell_returned (i : Nat) (v : CharCell) : (s.setCell i v).returned = s.returned := rfl
@[simp] theorem State.setCell_pending (i : Nat) (v : CharCell) : (s.setCell i v).pending = s.pending := rfl
@[simp] theorem State.setCell_env (i : Nat) (v : CharCell) : (s.setCell i v).env = s.env := rfl
@[simp] theorem State.setCell_epoch (i : Nat) (v : CharCell) : (s.setCell i v).epoch = s.epoch := rfl
@[simp] theorem State.setCell_draws (i : Nat) (v : CharCell) : (s.setCell i v).draws = s.draws := rfl

/-! ### State.setFontByte -/

@[simp] theorem State.setFontByte_cursor (i : Nat) (v : Byte) : (s.setFontByte i v).cursor = s.cursor := rfl
@[simp] theorem State.setFontByte_initDone (i : Nat) (v : Byte) : (s.setFontByte i v).initDone = s.initDone := rfl
@[simp] theorem State.setFontByte_engine (i : Nat) (v : Byte) : (s.setFontByte i v).engine = s.engine := rfl
@[simp] theorem State.setFontByte_fault (i : Nat) (v : Byte) : (s.setFontByte i v).fault = s.fault := rfl
@[simp] theorem State.setFontByte_regp (i : Nat) (v : Byte) : (s.setFontByte i v).regp = s.regp := rfl
@[simp] theorem State.setFontByte_rega (i : Nat) (v : Byte) : (s.setFontByte i v).rega = s.rega := rfl
@[simp] theorem State.setFontByte_cb (i : Nat) (v : Byte) : (s.setFontByte i v).cb = s.cb := rfl
@[simp] theorem State.setFontByte_font (i : Nat) (v : Byte) : (s.setFontByte i v).font = Store.write (Config.fontDraw s.epoch) i v s.font := rfl
@[simp] theorem State.setFontByte_fb (i : Nat) (v : Byte) : (s.setFontByte i v).fb = s.fb := rfl
@[simp] theorem State.setFontByte_returned (i : Nat) (v : Byte) : (s.setFontByte i v).returned = s.returned := rfl
@[simp] theorem State.setFontByte_pending (i : Nat) (v : Byte) : (s.setFontByte i v).pending = s.pending := rfl
@[simp] theorem State.setFontByte_env (i : Nat) (v : Byte) : (s.setFontByte i v).env = s.env := rfl
@[simp] theorem State.setFontByte_epoch (i : Nat) (v : Byte) : (s.setFontByte i v).epoch = s.epoch := rfl
@[simp] theorem State.setFontByte_draws (i : Nat) (v : Byte) : (s.setFontByte i v).draws = s.draws := rfl

/-! ### State.setFbWord -/

@[simp] theorem State.setFbWord_cursor (i : Nat) (v : FbWord) : (s.setFbWord i v).cursor = s.cursor := rfl
@[simp] theorem State.setFbWord_initDone (i : Nat) (v : FbWord) : (s.setFbWord i v).initDone = s.initDone := rfl
@[simp] theorem State.setFbWord_engine (i : Nat) (v : FbWord) : (s.setFbWord i v).engine = s.engine := rfl
@[simp] theorem State.setFbWord_fault (i : Nat) (v : FbWord) : (s.setFbWord i v).fault = s.fault := rfl
@[simp] theorem State.setFbWord_regp (i : Nat) (v : FbWord) : (s.setFbWord i v).regp = s.regp := rfl
@[simp] theorem State.setFbWord_rega (i : Nat) (v : FbWord) : (s.setFbWord i v).rega = s.rega := rfl
@[simp] theorem State.setFbWord_cb (i : Nat) (v : FbWord) : (s.setFbWord i v).cb = s.cb := rfl
@[simp] theorem State.setFbWord_font (i : Nat) (v : FbWord) : (s.setFbWord i v).font = s.font := rfl
@[simp] theorem State.setFbWord_fb (i : Nat) (v : FbWord) : (s.setFbWord i v).fb = Store.write (Config.fbDraw s.epoch) i v s.fb := rfl
@[simp] theorem State.setFbWord_returned (i : Nat) (v : FbWord) : (s.setFbWord i v).returned = s.returned := rfl
@[simp] theorem State.setFbWord_pending (i : Nat) (v : FbWord) : (s.setFbWord i v).pending = s.pending := rfl
@[simp] theorem State.setFbWord_env (i : Nat) (v : FbWord) : (s.setFbWord i v).env = s.env := rfl
@[simp] theorem State.setFbWord_epoch (i : Nat) (v : FbWord) : (s.setFbWord i v).epoch = s.epoch := rfl
@[simp] theorem State.setFbWord_draws (i : Nat) (v : FbWord) : (s.setFbWord i v).draws = s.draws := rfl

/-! ### State.putScreen -/

@[simp] theorem State.putScreen_cursor (x : Screen) : (s.putScreen x).cursor = x.c := rfl
@[simp] theorem State.putScreen_initDone (x : Screen) : (s.putScreen x).initDone = s.initDone := rfl
@[simp] theorem State.putScreen_engine (x : Screen) : (s.putScreen x).engine = s.engine := rfl
@[simp] theorem State.putScreen_fault (x : Screen) : (s.putScreen x).fault = s.fault := rfl
@[simp] theorem State.putScreen_rega (x : Screen) : (s.putScreen x).rega = s.rega := rfl
@[simp] theorem State.putScreen_cb (x : Screen) : (s.putScreen x).cb = x.cb := rfl
@[simp] theorem State.putScreen_font (x : Screen) : (s.putScreen x).font = s.font := rfl
@[simp] theorem State.putScreen_fb (x : Screen) : (s.putScreen x).fb = s.fb := rfl
@[simp] theorem State.putScreen_returned (x : Screen) : (s.putScreen x).returned = s.returned := rfl
@[simp] theorem State.putScreen_pending (x : Screen) : (s.putScreen x).pending = s.pending := rfl
@[simp] theorem State.putScreen_env (x : Screen) : (s.putScreen x).env = s.env := rfl
@[simp] theorem State.putScreen_epoch (x : Screen) : (s.putScreen x).epoch = s.epoch := rfl
@[simp] theorem State.putScreen_draws (x : Screen) : (s.putScreen x).draws = s.draws := rfl

/-! ### frameEvent -/

@[simp] theorem frameEvent_cursor : (frameEvent s).cursor = s.cursor := rfl
@[simp] theorem frameEvent_initDone : (frameEvent s).initDone = s.initDone := rfl
@[simp] theorem frameEvent_engine : (frameEvent s).engine = s.engine := rfl
@[simp] theorem frameEvent_fault : (frameEvent s).fault = s.fault := rfl
@[simp] theorem frameEvent_regp : (frameEvent s).regp = s.regp := rfl
@[simp] theorem frameEvent_rega : (frameEvent s).rega = s.regp := rfl
@[simp] theorem frameEvent_cb : (frameEvent s).cb = s.cb := rfl
@[simp] theorem frameEvent_font : (frameEvent s).font = s.font := rfl
@[simp] theorem frameEvent_fb : (frameEvent s).fb = s.fb := rfl
@[simp] theorem frameEvent_returned : (frameEvent s).returned = s.returned := rfl
@[simp] theorem frameEvent_pending : (frameEvent s).pending = s.pending := rfl
@[simp] theorem frameEvent_env : (frameEvent s).env = s.env := rfl
@[simp] theorem frameEvent_epoch : (frameEvent s).epoch = s.epoch := rfl
@[simp] theorem frameEvent_draws : (frameEvent s).draws = s.draws := rfl

/-! ### platformReset -/

@[simp] theorem platformReset_cursor : (platformReset s).cursor = Config.cursorDraw (s.epoch + 1) := rfl
@[simp] theorem platformReset_initDone : (platformReset s).initDone = false := rfl
@[simp] theorem platformReset_engine : (platformReset s).engine = .idle := rfl
@[simp] theorem platformReset_fault : (platformReset s).fault = none := rfl
@[simp] theorem platformReset_regp : (platformReset s).regp = regFileOf (Config.regpDraw (s.epoch + 1)) := rfl
@[simp] theorem platformReset_rega : (platformReset s).rega = regFileOf (Config.regaDraw (s.epoch + 1)) := rfl
@[simp] theorem platformReset_cb : (platformReset s).cb = [] := rfl
@[simp] theorem platformReset_font : (platformReset s).font = [] := rfl
@[simp] theorem platformReset_fb : (platformReset s).fb = [] := rfl
@[simp] theorem platformReset_returned : (platformReset s).returned = s.returned := rfl
@[simp] theorem platformReset_pending : (platformReset s).pending = s.pending := rfl
@[simp] theorem platformReset_env : (platformReset s).env = s.env := rfl
@[simp] theorem platformReset_epoch : (platformReset s).epoch = s.epoch + 1 := rfl
@[simp] theorem platformReset_draws : (platformReset s).draws = s.draws := rfl

end Sys2Proof.Machine
end

