-- ==== Sys2Proof/Laws/Store.lean ====
section
/-!
SUPPORT. What a memory reads after a write, and that every write keeps the canonical form.
-/

namespace Sys2Proof.Machine

variable {w : Nat} {dflt : Nat → BitVec w} {m : Store w} {f : Nat → BitVec w} {a n i j : Nat} {v : BitVec w}

@[simp] theorem Store.read_nil : Store.read dflt [] i = dflt i := rfl

theorem Store.mem_cells {e : Nat × BitVec w} :
    e ∈ Store.cells dflt a n f ↔ a ≤ e.1 ∧ e.1 < a + n ∧ e.2 = f e.1 ∧ e.2 ≠ dflt e.1 := by
  obtain ⟨k, v⟩ := e
  simp only [Store.cells, List.mem_filterMap, List.mem_range'_1]
  constructor
  · rintro ⟨i, ⟨h1, h2⟩, h⟩
    split at h
    · cases h
    · rename_i hne
      obtain ⟨rfl, rfl⟩ := Prod.mk.inj (Option.some.inj h)
      exact ⟨h1, h2, rfl, hne⟩
  · rintro ⟨h1, h2, rfl, hne⟩
    exact ⟨k, ⟨h1, h2⟩, by simp [hne]⟩

theorem Store.find_cells_outside (h : j < a ∨ a + n ≤ j) :
    (Store.cells dflt a n f).find? (fun e => e.1 == j) = none := by
  rw [List.find?_eq_none]
  rintro e he
  have := Store.mem_cells.1 he
  simp only [beq_iff_eq]; omega

theorem Store.cells_succ : Store.cells dflt a (n + 1) f =
    (if f a = dflt a then [] else [(a, f a)]) ++ Store.cells dflt (a + 1) n f := by
  simp only [Store.cells, List.range'_succ, List.filterMap_cons]
  split <;> split <;> simp_all

theorem Store.find_cells_inside (h1 : a ≤ j) (h2 : j < a + n) :
    (Store.cells dflt a n f).find? (fun e => e.1 == j) = if f j = dflt j then none else some (j, f j) := by
  induction n generalizing a with
  | zero => omega
  | succ n ih =>
    rw [Store.cells_succ, List.find?_append]
    rcases Nat.eq_or_lt_of_le h1 with rfl | hlt
    · rw [Store.find_cells_outside (.inl (Nat.lt_succ_self a))]
      split <;> simp
    · rw [ih hlt (by omega)]
      split <;> simp [Nat.ne_of_lt hlt]

theorem Store.find_filter_of_pos {p : Nat → Bool} (h : p j = true) :
    (m.filter fun e => p e.1).find? (fun e => e.1 == j) = m.find? (fun e => e.1 == j) := by
  induction m with
  | nil => rfl
  | cons e m ih =>
    by_cases he : e.1 = j
    · simp [he, h]
    · by_cases hp : p e.1 <;> simp [he, hp, ih]

theorem Store.find_filter_of_neg {p : Nat → Bool} (h : p j = false) :
    (m.filter fun e => p e.1).find? (fun e => e.1 == j) = none := by
  rw [List.find?_eq_none]
  rintro e he
  have := (List.mem_filter.1 he).2
  simp only [beq_iff_eq]; rintro rfl; simp_all

/-- A read after a fill: the filled value inside, the old one outside. -/
theorem Store.read_fill :
    Store.read dflt (Store.fill dflt a n f m) j = if a ≤ j ∧ j < a + n then f j else Store.read dflt m j := by
  have lo : (m.filter fun e => decide (e.1 < a)).find? (fun e => e.1 == j)
      = if j < a then m.find? (fun e => e.1 == j) else none := by
    split
    · exact Store.find_filter_of_pos (p := fun i => decide (i < a)) (by simpa)
    · exact Store.find_filter_of_neg (p := fun i => decide (i < a)) (by simpa using ‹¬ j < a›)
  have hi : (m.filter fun e => decide (a + n ≤ e.1)).find? (fun e => e.1 == j)
      = if a + n ≤ j then m.find? (fun e => e.1 == j) else none := by
    split
    · exact Store.find_filter_of_pos (p := fun i => decide (a + n ≤ i)) (by simpa)
    · exact Store.find_filter_of_neg (p := fun i => decide (a + n ≤ i)) (by simpa using ‹¬ a + n ≤ j›)
  unfold Store.read Store.fill
  rw [List.find?_append, List.find?_append, lo, hi]
  by_cases h1 : a ≤ j
  · by_cases h2 : j < a + n
    · rw [Store.find_cells_inside h1 h2, if_neg (Nat.not_lt.2 h1), if_neg (Nat.not_le.2 h2),
        if_pos (c := a ≤ j ∧ j < a + n) ⟨h1, h2⟩]
      by_cases h : f j = dflt j <;> simp [h]
    · rw [Store.find_cells_outside (.inr (Nat.not_lt.1 h2)), if_neg (Nat.not_lt.2 h1), if_pos (Nat.not_lt.1 h2),
        if_neg fun h => h2 h.2]
      simp
  · rw [Store.find_cells_outside (.inl (Nat.not_le.1 h1)), if_pos (Nat.not_le.1 h1), if_neg (by omega),
      if_neg fun h => h1 h.1]
    simp

theorem Store.read_write :
    Store.read dflt (Store.write dflt i v m) j = if j = i then v else Store.read dflt m j := by
  rw [Store.write, Store.read_fill]
  exact if_congr (by omega) rfl rfl

theorem Store.wf_nil : Store.wf dflt n [] := by simp [Store.wf]

theorem Store.cells_sorted : (Store.cells dflt a n f).Pairwise (fun x y => x.1 < y.1) := by
  induction n generalizing a with
  | zero => simp [Store.cells]
  | succ n ih =>
    rw [Store.cells_succ, List.pairwise_append]
    refine ⟨by split <;> simp, ih, fun x hx y hy => ?_⟩
    have := Store.mem_cells.1 hy
    split at hx <;> simp at hx
    subst hx; exact this.1

/-- Filling elements below the bound keeps the canonical form. -/
theorem Store.wf_fill {bound : Nat} (h : Store.wf dflt bound m) (hb : a + n ≤ bound) :
    Store.wf dflt bound (Store.fill dflt a n f m) := by
  obtain ⟨hs, he⟩ := h
  refine ⟨?_, fun e hm => ?_⟩
  · unfold Store.fill
    rw [List.append_assoc, List.pairwise_append, List.pairwise_append]
    refine ⟨hs.filter _, ⟨Store.cells_sorted, hs.filter _, fun x hx y hy => ?_⟩, fun x hx y hy => ?_⟩
    · have h1 := Store.mem_cells.1 hx
      have h2 := (List.mem_filter.1 hy).2
      simp at h2; omega
    · have h1 := (List.mem_filter.1 hx).2
      simp at h1
      rcases List.mem_append.1 hy with hy | hy
      · have := Store.mem_cells.1 hy; omega
      · have := (List.mem_filter.1 hy).2; simp at this; omega
  · rcases List.mem_append.1 hm with hm | hm
    · rcases List.mem_append.1 hm with hm | hm
      · exact he e (List.mem_filter.1 hm).1
      · have := Store.mem_cells.1 hm
        exact ⟨by omega, this.2.2.2⟩
    · exact he e (List.mem_filter.1 hm).1

theorem Store.wf_write {bound : Nat} (h : Store.wf dflt bound m) (hb : i < bound) :
    Store.wf dflt bound (Store.write dflt i v m) := Store.wf_fill h hb

end Sys2Proof.Machine
end

