-- ==== Sys2Proof/Laws/Ops.lean ====
section
/-!
SUPPORT. What the register and memory accessors read after each update, and that the memory operations keep the canonical form.
-/

namespace Sys2Proof.Machine

variable (s : State)

@[simp] theorem regFileOf_get (f : Reg → RegWord) (q : Reg) : (regFileOf f).get q = f q := by
  simp [regFileOf, Vector.get, -List.ofFn_succ]
  rfl

/-! ### The accessor an update changes -/

@[simp] theorem State.regP_setRegs (v : Reg → Option RegWord) (q : Reg) :
    (s.setRegs v).regP q = (v q).getD (s.regP q) := by
  simp [State.regP, State.setRegs]

@[simp] theorem State.regP_setReg (r : Reg) (v : RegWord) (q : Reg) :
    (s.setReg r v).regP q = if q = r then v else s.regP q := by
  simp only [State.setReg, State.regP_setRegs]; split <;> rfl

@[simp] theorem State.regA_frameEvent (q : Reg) : (frameEvent s).regA q = s.regP q := rfl

@[simp] theorem State.cell_fillCells (a n : Nat) (f : Nat → CharCell) (j : Nat) :
    (s.fillCells a n f).cell j = if a ≤ j ∧ j < a + n then f j else s.cell j := Store.read_fill

@[simp] theorem State.fontByte_fillFont (a n : Nat) (f : Nat → Byte) (j : Nat) :
    (s.fillFont a n f).fontByte j = if a ≤ j ∧ j < a + n then f j else s.fontByte j := Store.read_fill

@[simp] theorem State.fbWord_fillFb (a n : Nat) (f : Nat → FbWord) (j : Nat) :
    (s.fillFb a n f).fbWord j = if a ≤ j ∧ j < a + n then f j else s.fbWord j := Store.read_fill

@[simp] theorem State.cell_setCell (i : Nat) (v : CharCell) (j : Nat) :
    (s.setCell i v).cell j = if j = i then v else s.cell j := Store.read_write

@[simp] theorem State.fontByte_setFontByte (i : Nat) (v : Byte) (j : Nat) :
    (s.setFontByte i v).fontByte j = if j = i then v else s.fontByte j := Store.read_write

@[simp] theorem State.fbWord_setFbWord (i : Nat) (v : FbWord) (j : Nat) :
    (s.setFbWord i v).fbWord j = if j = i then v else s.fbWord j := Store.read_write

@[simp] theorem State.cell_putScreen (x : Screen) (j : Nat) :
    (s.putScreen x).cell j = Store.read (Config.cbDraw s.epoch) x.cb j := rfl

theorem State.regP_putScreen (x : Screen) (q : Reg) :
    (s.putScreen x).regP q = if q = regXcur then toRegWord (x.c % Config.rowCells)
      else if q = regYcur then toRegWord (x.c / Config.rowCells) else s.regP q := by
  simp only [State.putScreen, State.regP_setRegs]
  split
  · rfl
  · split <;> rfl

@[simp] theorem State.cell_platformReset (j : Nat) : (platformReset s).cell j = Config.cbDraw (s.epoch + 1) j := rfl

@[simp] theorem State.fontByte_platformReset (j : Nat) :
    (platformReset s).fontByte j = Config.fontDraw (s.epoch + 1) j := rfl

@[simp] theorem State.fbWord_platformReset (j : Nat) : (platformReset s).fbWord j = Config.fbDraw (s.epoch + 1) j := rfl

@[simp] theorem State.regP_platformReset (q : Reg) : (platformReset s).regP q = Config.regpDraw (s.epoch + 1) q := by
  simp [State.regP]

@[simp] theorem State.regA_platformReset (q : Reg) : (platformReset s).regA q = Config.regaDraw (s.epoch + 1) q := by
  simp [State.regA]

/-! ### The accessors an update leaves -/

@[simp] theorem State.regP_retire (q : Reg) : s.retire.regP q = s.regP q := rfl
@[simp] theorem State.regA_retire (q : Reg) : s.retire.regA q = s.regA q := rfl
@[simp] theorem State.cell_retire (j : Nat) : s.retire.cell j = s.cell j := rfl
@[simp] theorem State.fontByte_retire (j : Nat) : s.retire.fontByte j = s.fontByte j := rfl
@[simp] theorem State.fbWord_retire (j : Nat) : s.retire.fbWord j = s.fbWord j := rfl
@[simp] theorem State.regP_raise (f : FaultInfo) (q : Reg) : (s.raise f).regP q = s.regP q := rfl
@[simp] theorem State.regA_raise (f : FaultInfo) (q : Reg) : (s.raise f).regA q = s.regA q := rfl
@[simp] theorem State.cell_raise (f : FaultInfo) (j : Nat) : (s.raise f).cell j = s.cell j := rfl
@[simp] theorem State.fontByte_raise (f : FaultInfo) (j : Nat) : (s.raise f).fontByte j = s.fontByte j := rfl
@[simp] theorem State.fbWord_raise (f : FaultInfo) (j : Nat) : (s.raise f).fbWord j = s.fbWord j := rfl
@[simp] theorem State.regP_reply (v : Reply) (q : Reg) : (s.reply v).regP q = s.regP q := rfl
@[simp] theorem State.regA_reply (v : Reply) (q : Reg) : (s.reply v).regA q = s.regA q := rfl
@[simp] theorem State.cell_reply (v : Reply) (j : Nat) : (s.reply v).cell j = s.cell j := rfl
@[simp] theorem State.fontByte_reply (v : Reply) (j : Nat) : (s.reply v).fontByte j = s.fontByte j := rfl
@[simp] theorem State.fbWord_reply (v : Reply) (j : Nat) : (s.reply v).fbWord j = s.fbWord j := rfl
@[simp] theorem State.regA_setRegs (v : Reg → Option RegWord) (q : Reg) : (s.setRegs v).regA q = s.regA q := rfl
@[simp] theorem State.cell_setRegs (v : Reg → Option RegWord) (j : Nat) : (s.setRegs v).cell j = s.cell j := rfl
@[simp] theorem State.fontByte_setRegs (v : Reg → Option RegWord) (j : Nat) : (s.setRegs v).fontByte j = s.fontByte j := rfl
@[simp] theorem State.fbWord_setRegs (v : Reg → Option RegWord) (j : Nat) : (s.setRegs v).fbWord j = s.fbWord j := rfl
@[simp] theorem State.regA_setReg (r : Reg) (v : RegWord) (q : Reg) : (s.setReg r v).regA q = s.regA q := rfl
@[simp] theorem State.cell_setReg (r : Reg) (v : RegWord) (j : Nat) : (s.setReg r v).cell j = s.cell j := rfl
@[simp] theorem State.fontByte_setReg (r : Reg) (v : RegWord) (j : Nat) : (s.setReg r v).fontByte j = s.fontByte j := rfl
@[simp] theorem State.fbWord_setReg (r : Reg) (v : RegWord) (j : Nat) : (s.setReg r v).fbWord j = s.fbWord j := rfl
@[simp] theorem State.regP_fillCells (a n : Nat) (f : Nat → CharCell) (q : Reg) : (s.fillCells a n f).regP q = s.regP q := rfl
@[simp] theorem State.regA_fillCells (a n : Nat) (f : Nat → CharCell) (q : Reg) : (s.fillCells a n f).regA q = s.regA q := rfl
@[simp] theorem State.fontByte_fillCells (a n : Nat) (f : Nat → CharCell) (j : Nat) : (s.fillCells a n f).fontByte j = s.fontByte j := rfl
@[simp] theorem State.fbWord_fillCells (a n : Nat) (f : Nat → CharCell) (j : Nat) : (s.fillCells a n f).fbWord j = s.fbWord j := rfl
@[simp] theorem State.regP_fillFont (a n : Nat) (f : Nat → Byte) (q : Reg) : (s.fillFont a n f).regP q = s.regP q := rfl
@[simp] theorem State.regA_fillFont (a n : Nat) (f : Nat → Byte) (q : Reg) : (s.fillFont a n f).regA q = s.regA q := rfl
@[simp] theorem State.cell_fillFont (a n : Nat) (f : Nat → Byte) (j : Nat) : (s.fillFont a n f).cell j = s.cell j := rfl
@[simp] theorem State.fbWord_fillFont (a n : Nat) (f : Nat → Byte) (j : Nat) : (s.fillFont a n f).fbWord j = s.fbWord j := rfl
@[simp] theorem State.regP_fillFb (a n : Nat) (f : Nat → FbWord) (q : Reg) : (s.fillFb a n f).regP q = s.regP q := rfl
@[simp] theorem State.regA_fillFb (a n : Nat) (f : Nat → FbWord) (q : Reg) : (s.fillFb a n f).regA q = s.regA q := rfl
@[simp] theorem State.cell_fillFb (a n : Nat) (f : Nat → FbWord) (j : Nat) : (s.fillFb a n f).cell j = s.cell j := rfl
@[simp] theorem State.fontByte_fillFb (a n : Nat) (f : Nat → FbWord) (j : Nat) : (s.fillFb a n f).fontByte j = s.fontByte j := rfl
@[simp] theorem State.regP_setCell (i : Nat) (v : CharCell) (q : Reg) : (s.setCell i v).regP q = s.regP q := rfl
@[simp] theorem State.regA_setCell (i : Nat) (v : CharCell) (q : Reg) : (s.setCell i v).regA q = s.regA q := rfl
@[simp] theorem State.fontByte_setCell (i : Nat) (v : CharCell) (j : Nat) : (s.setCell i v).fontByte j = s.fontByte j := rfl
@[simp] theorem State.fbWord_setCell (i : Nat) (v : CharCell) (j : Nat) : (s.setCell i v).fbWord j = s.fbWord j := rfl
@[simp] theorem State.regP_setFontByte (i : Nat) (v : Byte) (q : Reg) : (s.setFontByte i v).regP q = s.regP q := rfl
@[simp] theorem State.regA_setFontByte (i : Nat) (v : Byte) (q : Reg) : (s.setFontByte i v).regA q = s.regA q := rfl
@[simp] theorem State.cell_setFontByte (i : Nat) (v : Byte) (j : Nat) : (s.setFontByte i v).cell j = s.cell j := rfl
@[simp] theorem State.fbWord_setFontByte (i : Nat) (v : Byte) (j : Nat) : (s.setFontByte i v).fbWord j = s.fbWord j := rfl
@[simp] theorem State.regP_setFbWord (i : Nat) (v : FbWord) (q : Reg) : (s.setFbWord i v).regP q = s.regP q := rfl
@[simp] theorem State.regA_setFbWord (i : Nat) (v : FbWord) (q : Reg) : (s.setFbWord i v).regA q = s.regA q := rfl
@[simp] theorem State.cell_setFbWord (i : Nat) (v : FbWord) (j : Nat) : (s.setFbWord i v).cell j = s.cell j := rfl
@[simp] theorem State.fontByte_setFbWord (i : Nat) (v : FbWord) (j : Nat) : (s.setFbWord i v).fontByte j = s.fontByte j := rfl
@[simp] theorem State.regA_putScreen (x : Screen) (q : Reg) : (s.putScreen x).regA q = s.regA q := rfl
@[simp] theorem State.fontByte_putScreen (x : Screen) (j : Nat) : (s.putScreen x).fontByte j = s.fontByte j := rfl
@[simp] theorem State.fbWord_putScreen (x : Screen) (j : Nat) : (s.putScreen x).fbWord j = s.fbWord j := rfl
@[simp] theorem State.regP_frameEvent (q : Reg) : (frameEvent s).regP q = s.regP q := rfl
@[simp] theorem State.cell_frameEvent (j : Nat) : (frameEvent s).cell j = s.cell j := rfl
@[simp] theorem State.fontByte_frameEvent (j : Nat) : (frameEvent s).fontByte j = s.fontByte j := rfl
@[simp] theorem State.fbWord_frameEvent (j : Nat) : (frameEvent s).fbWord j = s.fbWord j := rfl

/-! ### The canonical form -/

theorem Memory.wf_reset : Memory.wf State.reset := ⟨Store.wf_nil, Store.wf_nil, Store.wf_nil⟩

theorem Memory.wf_platformReset : Memory.wf (platformReset s) := ⟨Store.wf_nil, Store.wf_nil, Store.wf_nil⟩

variable {s}

theorem Memory.wf_fillCells (h : Memory.wf s) {a n : Nat} (f : Nat → CharCell) (hb : a + n ≤ Config.charbufCells) :
    Memory.wf (s.fillCells a n f) := ⟨Store.wf_fill h.1 hb, h.2⟩

theorem Memory.wf_fillFont (h : Memory.wf s) {a n : Nat} (f : Nat → Byte) (hb : a + n ≤ Config.fontBytes) :
    Memory.wf (s.fillFont a n f) := ⟨h.1, Store.wf_fill h.2.1 hb, h.2.2⟩

theorem Memory.wf_fillFb (h : Memory.wf s) {a n : Nat} (f : Nat → FbWord) (hb : a + n ≤ Config.fbWords) :
    Memory.wf (s.fillFb a n f) := ⟨h.1, h.2.1, Store.wf_fill h.2.2 hb⟩

theorem Memory.wf_putScreen (h : Memory.wf s) {x : Screen}
    (hx : Store.wf (Config.cbDraw s.epoch) Config.charbufCells x.cb) : Memory.wf (s.putScreen x) := ⟨hx, h.2⟩

end Sys2Proof.Machine
end

