-- ==== Sys2Proof/Laws/Host.lean ====
section
/-!
SUPPORT. Everything a HOST command can do: it is stopped by a recorded fault, held while ENGINE is busy, or performed; and `exec` is one
`hostCommand` of the instruction's effect.
-/

namespace Sys2Proof.Machine

variable {s t after done : State} {sp : Space} {idx : Nat}

theorem hostCommand_open (h : s.Open) : hostCommand s after = .next after.retire := by
  simp [hostCommand, h.1, h.2]

theorem hostCommand_held {k : InitStep} (hf : s.fault = none) (hk : s.engine = .step k) :
    hostCommand s after = .next s := by
  simp [hostCommand, hf, hk]

theorem hostCommand_stopped {f : FaultInfo} (hf : s.fault = some f) : hostCommand s after = .fault (.stopped f) := by
  simp [hostCommand, hf]

/-- A next state of a HOST command: performed, or held. -/
theorem hostCommand_cases (h : hostCommand s after = .next t) :
    (s.Open ∧ t = after.retire) ∨ (s.fault = none ∧ s.engine ≠ .idle ∧ t = s) := by
  unfold hostCommand at h
  split at h <;> cases h
  · exact .inr ⟨‹_›, by simp_all, rfl⟩
  · exact .inl ⟨⟨‹_›, ‹_›⟩, rfl⟩

theorem checkIndex_of_lt (h : idx < elementCount sp) : checkIndex sp idx s done = done := if_pos h

theorem checkIndex_of_le (h : elementCount sp ≤ idx) : checkIndex sp idx s done = s.raise (.badIndex sp idx) :=
  if_neg (Nat.not_lt.2 h)

/-- The state a performed command leaves, before the HOST goes on. -/
def commandEffect (i : Instr) (s : State) : State :=
  match i with
  | .rdChar idx => checkIndex .char idx s (s.reply (.char (s.cell idx)))
  | .wrChar idx data => checkIndex .char idx s (s.setCell idx data)
  | .rdReg idx => checkIndex .reg idx s (s.reply (.reg (s.regP (regOfIdx idx))))
  | .wrReg idx data => checkIndex .reg idx s (s.setReg (regOfIdx idx) data)
  | .rdFont idx => checkIndex .font idx s (s.reply (.font (s.fontByte idx)))
  | .wrFont idx data => checkIndex .font idx s (s.setFontByte idx data)
  | .rdFb idx => checkIndex .fb idx s (s.reply (.fb (s.fbWord idx)))
  | .wrFb idx data => checkIndex .fb idx s (s.setFbWord idx data)
  | .putcBs => putChar 0x08#8 eraseBack s
  | .putcDel => putChar 0x7F#8 eraseBack s
  | .putcCr => putChar 0x0D#8 (fun _ => carriageReturn) s
  | .putcLf => putChar 0x0A#8 lineFeed s
  | .putcPrint b => putChar b (fun dflt => printByte dflt b) s
  | .init => { s with engine := .step .s1 }

theorem exec_eq_hostCommand (i : Instr) (s : State) : exec i s = hostCommand s (commandEffect i s) := by
  cases i <;> rfl

theorem putChar_ready {b : Byte} {action : (Nat → CharCell) → Screen → Screen} (h : s.initDone = true) :
    putChar b action s =
      s.putScreen (scrollCheck consoleGrid (Config.cbDraw s.epoch) (action (Config.cbDraw s.epoch) s.screen)) :=
  if_pos h

theorem putChar_early {b : Byte} {action : (Nat → CharCell) → Screen → Screen} (h : s.initDone = false) :
    putChar b action s = s.raise (.useBeforeInit b) := by
  simp [putChar, h]

end Sys2Proof.Machine
end

