-- ==== Sys2Proof/Laws/Console.lean ====
section
/-!
SUPPORT. The rows of an index, the four actions of a PUTC and the scroll: where the cursor goes, which cells change, and that the
character buffer keeps its canonical form.
-/

namespace Sys2Proof.Machine

/-! ### Rows -/

theorem rowStart_eq (c : Nat) : rowStart c = c / 128 * 128 := by simp only [rowStart, Config.rowCells]; omega

/-- `nextRow` is the spec's `(c | 127) + 1` (R81). -/
theorem nextRow_eq_or (c : Nat) : nextRow c = (c ||| 127) + 1 := by
  have h : c ||| 127 = c / 128 * 128 + 127 := by
    apply Nat.eq_of_testBit_eq
    intro i
    have : c / 128 * 128 + 127 = 2 ^ 7 * (c / 128) + 127 := by omega
    rw [this, Nat.testBit_two_pow_mul_add _ (by decide), Nat.testBit_or]
    split
    · rename_i h
      have : Nat.testBit 127 i = true := by
        rw [show 127 = 2 ^ 7 - 1 by rfl, Nat.testBit_two_pow_sub_one]; simpa
      simp [this]
    · rename_i h
      have : Nat.testBit 127 i = false := by
        rw [show 127 = 2 ^ 7 - 1 by rfl, Nat.testBit_two_pow_sub_one]; simpa using h
      rw [this, Bool.or_false, show 128 = 2 ^ 7 by rfl, Nat.testBit_div_two_pow]
      congr 1; omega
  rw [nextRow, rowStart_eq, h, Config.rowCells]

theorem lt_nextRow (c : Nat) : c < nextRow c := by simp only [nextRow, rowStart_eq, Config.rowCells]; omega

theorem nextRow_le_of_lt {c k : Nat} (hk : k % 128 = 0) (h : c < k) : nextRow c ≤ k := by
  simp only [nextRow, rowStart_eq, Config.rowCells]; omega

/-! ### The actions -/

section Actions

variable {dflt : Nat → CharCell} {x : Screen} {b : Byte} {j : Nat}

theorem eraseBack_column_zero (h : x.c % 128 = 0) : eraseBack dflt x = x := if_pos h

theorem eraseBack_c (h : x.c % 128 ≠ 0) : (eraseBack dflt x).c = x.c - 1 := by
  simp [eraseBack, Config.rowCells, h]

theorem read_eraseBack (h : x.c % 128 ≠ 0) :
    Store.read dflt (eraseBack dflt x).cb j = if j = x.c - 1 then Config.blank else Store.read dflt x.cb j := by
  simp [eraseBack, Config.rowCells, h, Store.read_write]

theorem read_lineFeed : Store.read dflt (lineFeed dflt x).cb j =
    if x.c ≤ j ∧ j < nextRow x.c then Config.blank else Store.read dflt x.cb j := by
  have := lt_nextRow x.c
  simp only [lineFeed, Store.read_fill]
  exact if_congr (by omega) rfl rfl

theorem read_printByte : Store.read dflt (printByte dflt b x).cb j =
    if j = x.c then printedCell b else Store.read dflt x.cb j := Store.read_write

end Actions

/-! ### The scroll -/

section Scroll

variable {g : Grid} {dflt : Nat → CharCell} {x : Screen} {j : Nat}

theorem scrollCheck_of_lt (h : x.c < g.cap) : scrollCheck g dflt x = x := if_neg (Nat.not_le.2 h)

theorem scrollCheck_c (h : g.cap ≤ x.c) : (scrollCheck g dflt x).c = g.cap - 128 := by
  simp [scrollCheck, h, Config.rowCells]

theorem read_scrollCheck (h : g.cap ≤ x.c) : Store.read dflt (scrollCheck g dflt x).cb j =
    if g.start ≤ j ∧ j < g.cap then
      if j + 128 < g.cap then Store.read dflt x.cb (j + 128) else Config.blank
    else Store.read dflt x.cb j := by
  unfold scrollCheck
  rw [if_pos h, Store.read_fill]
  exact if_congr (by omega) rfl rfl

theorem scrollCheck_wf {n : Nat} (hx : Store.wf dflt n x.cb) (hg : g.start ≤ g.cap) (hn : g.cap ≤ n) :
    Store.wf dflt n (scrollCheck g dflt x).cb := by
  unfold scrollCheck
  split
  · exact Store.wf_fill hx (by omega)
  · exact hx

end Scroll

/-- This machine's scroll puts a cursor of at most CAP back into the grid (R85, R88). -/
theorem scrollCheck_inGrid {dflt : Nat → CharCell} {x : Screen} (h : Config.gridStart ≤ x.c) :
    Config.gridStart ≤ (scrollCheck consoleGrid dflt x).c ∧ (scrollCheck consoleGrid dflt x).c < Config.cap := by
  have hrow := Config.gridStart_row_le_cap
  by_cases hc : Config.cap ≤ x.c
  · rw [scrollCheck_c (g := consoleGrid) hc]
    simp only [consoleGrid]; omega
  · rw [scrollCheck_of_lt (g := consoleGrid) (Nat.not_le.1 hc)]
    exact ⟨h, Nat.not_le.1 hc⟩

end Sys2Proof.Machine
end

