-- ==== Sys2Proof/Laws/Decode.lean ====
section
/-!
SUPPORT. Decoding looks at the command word alone; the operands go into the instruction it chooses. A statement about every command word
is so a finite question.
-/

namespace Sys2Proof

/-- The same instruction with the operands IDX and DATA of a command, DATA cut to its width (R11). -/
def withOperands (idx data : Nat) : Instr → Instr
  | .rdChar _ => .rdChar idx
  | .wrChar _ _ => .wrChar idx (BitVec.ofNat 16 data)
  | .rdReg _ => .rdReg idx
  | .wrReg _ _ => .wrReg idx (BitVec.ofNat Config.regW data)
  | .rdFont _ => .rdFont idx
  | .wrFont _ _ => .wrFont idx (BitVec.ofNat 8 data)
  | .rdFb _ => .rdFb idx
  | .wrFb _ _ => .wrFb idx (BitVec.ofNat Config.fbW data)
  | .putcBs => .putcBs
  | .putcDel => .putcDel
  | .putcCr => .putcCr
  | .putcLf => .putcLf
  | .putcPrint b => .putcPrint b
  | .init => .init

/-- A word's decoding with both operands 0. -/
def decodeWord (cw : CmdWord) : Decoded := decode ⟨cw, 0, 0⟩

theorem withOperands_decodePutc (idx data : Nat) (b : Byte) : withOperands idx data (decodePutc b) = decodePutc b := by
  unfold decodePutc; repeat' split
  all_goals rfl

/-- Decoding depends on the word alone. -/
theorem decode_eq (c : Command) :
    decode c = match decodeWord c.cw with
      | .ok i => .ok (withOperands c.idx c.data i)
      | .illegal why => .illegal why := by
  obtain ⟨cw, idx, data⟩ := c
  simp only [decodeWord, decode, decodeMemory]
  cases spaceOfCode (spField cw) with
  | none => rfl
  | some sp =>
    cases sp <;> dsimp only
    case con => by_cases hw : wField cw = true <;> simp [hw, withOperands_decodePutc]
    case ctl => split <;> rfl
    all_goals by_cases hb : bField cw = 0x00#8 <;> by_cases hw : wField cw = true <;> simp [hb, hw, withOperands]

/-- A word's decoding, whatever the operands. -/
theorem decode_of_word {cw : CmdWord} {i : Instr} (h : decodeWord cw = .ok i) (idx data : Nat) :
    decode ⟨cw, idx, data⟩ = .ok (withOperands idx data i) := by rw [decode_eq, h]

theorem illegal_iff_word (c : Command) (why : Illegal) : decode c = .illegal why ↔ decodeWord c.cw = .illegal why := by
  rw [decode_eq]; split <;> simp_all

theorem decode_ok_iff_word (c : Command) (i : Instr) :
    decode c = .ok i ↔ ∃ j, decodeWord c.cw = .ok j ∧ i = withOperands c.idx c.data j := by
  rw [decode_eq]; split <;> simp_all [eq_comm]

variable (idx data : Nat) (i : Instr)

@[simp] theorem withOperands_wellFormed : (withOperands idx data i).wellFormed = i.wellFormed := by cases i <;> rfl

@[simp] theorem withOperands_mnemonic : (withOperands idx data i).mnemonic = i.mnemonic := by cases i <;> rfl

@[simp] theorem withOperands_encode_cw : (encode (withOperands idx data i)).cw = (encode i).cw := by cases i <;> rfl

/-! ### The word of every row (R66, R67), written from the spec's table -/

theorem decodeWord_rdChar : decodeWord 0x000#12 = .ok (.rdChar 0) := by decide

theorem decodeWord_wrChar : decodeWord 0x100#12 = .ok (.wrChar 0 0) := by decide

theorem decodeWord_rdReg : decodeWord 0x200#12 = .ok (.rdReg 0) := by decide

theorem decodeWord_wrReg : decodeWord 0x300#12 = .ok (.wrReg 0 0) := by decide

theorem decodeWord_rdFont : decodeWord 0x400#12 = .ok (.rdFont 0) := by decide

theorem decodeWord_wrFont : decodeWord 0x500#12 = .ok (.wrFont 0 0) := by decide

theorem decodeWord_rdFb : decodeWord 0x600#12 = .ok (.rdFb 0) := by decide

theorem decodeWord_wrFb : decodeWord 0x700#12 = .ok (.wrFb 0 0) := by decide

theorem decodeWord_putcBs : decodeWord 0x908#12 = .ok .putcBs := by decide

theorem decodeWord_putcDel : decodeWord 0x97F#12 = .ok .putcDel := by decide

theorem decodeWord_putcCr : decodeWord 0x90D#12 = .ok .putcCr := by decide

theorem decodeWord_putcLf : decodeWord 0x90A#12 = .ok .putcLf := by decide

theorem decodeWord_init : decodeWord 0xB00#12 = .ok .init := by decide

theorem decodeWord_putcWord : ∀ b : Byte, decodeWord (putcWord b) = .ok (decodePutc b) := by decide

theorem decodePutc_of_printable {b : Byte} (h : Byte.printable b = true) : decodePutc b = .putcPrint b := by
  simp only [Byte.printable, Bool.and_eq_true, bne_iff_ne, ne_eq] at h
  simp [decodePutc, h]

/-- The instruction's own operands put back change nothing. -/
theorem withOperands_encode : withOperands (encode i).idx (encode i).data i = i := by
  cases i <;> simp [withOperands, encode]

end Sys2Proof
end

