-- ==== Sys2Proof/Laws/Init.lean ====
section
/-!
SUPPORT. What each ENGINE step leaves in the registers and the memories, and what it leaves alone.
-/

namespace Sys2Proof.Machine

variable (s : State) (k : InitStep)

/-! ### A step is its effect, apart from `engine` -/

@[simp] theorem engineStep_regP (q : Reg) : (engineStep k s).regP q = (initEffect k s).regP q := rfl
@[simp] theorem engineStep_cell (j : Nat) : (engineStep k s).cell j = (initEffect k s).cell j := rfl
@[simp] theorem engineStep_fontByte (j : Nat) : (engineStep k s).fontByte j = (initEffect k s).fontByte j := rfl
@[simp] theorem engineStep_fbWord (j : Nat) : (engineStep k s).fbWord j = (initEffect k s).fbWord j := rfl
@[simp] theorem engineStep_engine : (engineStep k s).engine = engineAfter k := rfl

/-- No step touches what only the HOST, ENV, a fault or a reset changes. -/
theorem engineStep_frame : (engineStep k s).fault = s.fault ∧ (engineStep k s).rega = s.rega ∧
    (engineStep k s).returned = s.returned ∧ (engineStep k s).pending = s.pending ∧ (engineStep k s).env = s.env ∧
    (engineStep k s).epoch = s.epoch := by
  cases k <;> exact ⟨rfl, rfl, rfl, rfl, rfl, rfl⟩

theorem stepsLeft_engineAfter : stepsLeft (engineAfter k) + 1 = stepsLeft (.step k) := by cases k <;> rfl

/-! ### What each step leaves -/

@[simp] theorem initCursorRegs_regP (q : Reg) : (initCursorRegs s).regP q =
    if q = regCursv then Config.cursvInit else if q = regXcur then toRegWord (s.cursor % 128)
    else if q = regYcur then toRegWord (s.cursor / 128) else s.regP q := by
  simp only [initCursorRegs, State.regP_setRegs]
  repeat' split
  all_goals rfl

@[simp] theorem initTiming_regP (q : Reg) : (initTiming s).regP q =
    if q = regHstart then Config.hstartInit else if q = regHsyn then Config.hsynInit
    else if q = regHstop then Config.hstopInit else if q = regVstart then Config.vstartInit
    else if q = regVstop then Config.vstopInit else s.regP q := by
  simp only [initTiming, State.regP_setRegs]
  repeat' split
  all_goals rfl

@[simp] theorem initPixels_regP (q : Reg) : (initPixels s).regP q =
    if q = regPstart then Config.pstartInit else if q = regPstop then Config.pstopInit
    else if q = regXscale then Config.xscaleInit else if q = regYscale then Config.yscaleInit
    else if q = regFlimit then Config.flimitInit else s.regP q := by
  simp only [initPixels, State.regP_setRegs]
  repeat' split
  all_goals rfl

@[simp] theorem initPalette_regP (q : Reg) : (initPalette s).regP q =
    if 14 ≤ q.val ∧ q.val < 30 then Config.paletteInit (q.val - 14) else s.regP q := by
  simp only [initPalette, State.regP_setRegs]
  split <;> rfl

@[simp] theorem initStatusBar_regP (q : Reg) :
    (initStatusBar s).regP q = if q = regMode then toRegWord 2 else s.regP q := State.regP_setReg ..

@[simp] theorem initActivate_regP (q : Reg) :
    (initActivate s).regP q = if q = regMode then toRegWord 1 else s.regP q := State.regP_setReg ..

@[simp] theorem initFont_fontByte (a : Nat) :
    (initFont s).fontByte a = if a < 2048 then uploadedByte Config.glyphRom a else s.fontByte a :=
  (State.fontByte_fillFont ..).trans (if_congr (by simp) rfl rfl)

@[simp] theorem initClearFb_fbWord (i : Nat) :
    (initClearFb s).fbWord i = if i < Config.fbWords then 0 else s.fbWord i :=
  (State.fbWord_fillFb ..).trans (if_congr (by simp) rfl rfl)

@[simp] theorem initLogo_fbWord (i : Nat) :
    (initLogo s).fbWord i = if i < Config.fbWords then Config.logoDraw s.draws i else s.fbWord i :=
  (State.fbWord_fillFb s ..).trans (if_congr (by simp) rfl rfl)

@[simp] theorem initStatusBar_cell (j : Nat) :
    (initStatusBar s).cell j = if j < 4096 then statusCell (j / 128) (j % 128) else s.cell j :=
  (State.cell_fillCells (s.setReg ..) ..).trans (if_congr (by simp) rfl rfl)

/-! ### The values of INIT fit in a register -/

theorem toRegWord_toNat {n : Nat} (h : n < 2 ^ Config.regW) : (toRegWord n).toNat = n := by
  simp only [toRegWord, BitVec.toNat_ofNat, Nat.mod_eq_of_lt h]

theorem lt_regW_of_lt {n : Nat} (h : n < 256) : n < 2 ^ Config.regW :=
  Nat.lt_of_lt_of_le (m := 2 ^ 8) h (Nat.pow_le_pow_right (by decide) Config.eight_le_regW)

theorem row_lt_regW {c : Nat} (h : c ≤ Config.cap) : c / 128 < 2 ^ Config.regW :=
  Nat.lt_of_le_of_lt (Nat.div_le_div_right h) Config.rows_lt_two_pow_regW

/-- The uploaded font never has bit 0 or bit 7 set, but for the block glyph (R38, R100). -/
theorem packRow_clear (row : Byte) : packRow row &&& 0x81#8 = 0#8 := by revert row; decide

end Sys2Proof.Machine
end

