-- ==== Sys2Proof/Laws/PerInstr.lean ====
section
/-!
SUPPORT. For every instruction: its encoding is a word of its own row of the opcode table (spec/30_encoding.md R66, R67, R74) and of no
other row.
-/

namespace Sys2Proof.Laws.OneRow

/-- The mnemonics of the table's rows that a command word matches. -/
def rowsOf (cw : CmdWord) : List String :=
  (opcodeTable.filter fun row => row.matchesWord cw).map TableRow.mnemonic

/-- The rows that a well-formed instruction's command word matches: its own row alone. -/
def Statement (i : Instr) : Prop := i.wellFormed = true → rowsOf (encode i).cw = [i.mnemonic]

theorem rowsOf_putcWord : ∀ b : Byte, Byte.printable b = true → rowsOf (putcWord b) = ["PUTC.PRINT"] := by decide

theorem rdChar (idx : Nat) : Statement (.rdChar idx) :=
  fun _ => show rowsOf 0x000#12 = ["RD.CHAR"] by decide

theorem wrChar (idx : Nat) (data : CharCell) : Statement (.wrChar idx data) :=
  fun _ => show rowsOf 0x100#12 = ["WR.CHAR"] by decide

theorem rdReg (idx : Nat) : Statement (.rdReg idx) :=
  fun _ => show rowsOf 0x200#12 = ["RD.REG"] by decide

theorem wrReg (idx : Nat) (data : RegWord) : Statement (.wrReg idx data) :=
  fun _ => show rowsOf 0x300#12 = ["WR.REG"] by decide

theorem rdFont (idx : Nat) : Statement (.rdFont idx) :=
  fun _ => show rowsOf 0x400#12 = ["RD.FONT"] by decide

theorem wrFont (idx : Nat) (data : Byte) : Statement (.wrFont idx data) :=
  fun _ => show rowsOf 0x500#12 = ["WR.FONT"] by decide

theorem rdFb (idx : Nat) : Statement (.rdFb idx) :=
  fun _ => show rowsOf 0x600#12 = ["RD.FB"] by decide

theorem wrFb (idx : Nat) (data : FbWord) : Statement (.wrFb idx data) :=
  fun _ => show rowsOf 0x700#12 = ["WR.FB"] by decide

theorem putcBs : Statement .putcBs :=
  fun _ => show rowsOf 0x908#12 = ["PUTC.BS"] by decide

theorem putcDel : Statement .putcDel :=
  fun _ => show rowsOf 0x97F#12 = ["PUTC.DEL"] by decide

theorem putcCr : Statement .putcCr :=
  fun _ => show rowsOf 0x90D#12 = ["PUTC.CR"] by decide

theorem putcLf : Statement .putcLf :=
  fun _ => show rowsOf 0x90A#12 = ["PUTC.LF"] by decide

theorem putcPrint (b : Byte) : Statement (.putcPrint b) :=
  fun h => rowsOf_putcWord b h

theorem init : Statement .init :=
  fun _ => show rowsOf 0xB00#12 = ["INIT"] by decide

end Sys2Proof.Laws.OneRow
end

