-- ==== Sys2Proof/Laws/Platform.lean ====
section
/-!
SUPPORT. The platform's four regions do not overlap (spec/00_scope.md R6, spec/20_memory.md R52), and every choice of bases of which that
is true is one the model reaches.
-/

namespace Sys2Proof.Machine

theorem apart_comm {x m y n : Nat} (h : Apart x m y n) : Apart y n x m := by
  simp only [Apart] at *; omega

theorem apart_of_le {x m y n : Nat} (h : x + m ≤ y) : Apart x m y n := by simp only [Apart]; omega

/-- An element ends no later than its region does. -/
theorem mul_add_le_mul {i n w : Nat} (h : i < n) : i * w + w ≤ n * w := by
  rw [← Nat.succ_mul]; exact Nat.mul_le_mul_right w h

theorem packedBases_disjoint : RegionsDisjoint packedBases := by
  intro sp hp sq hq hne i hi j hj
  have a := mul_add_le_mul (w := elementBytes sp) hi
  have b := mul_add_le_mul (w := elementBytes sq) hj
  simp only [memorySpaces, List.mem_cons, List.not_mem_nil, or_false] at hp hq
  rcases hp with rfl | rfl | rfl | rfl <;> rcases hq with rfl | rfl | rfl | rfl <;> first
    | exact absurd rfl hne
    | (apply apart_of_le; simp only [elementStart, packedBases]; omega)
    | (apply apart_comm; apply apart_of_le; simp only [elementStart, packedBases]; omega)

/-- Whatever bases it starts from, the model's meet R6's constraint. -/
theorem basesOf_disjoint (b : Bases) : RegionsDisjoint (basesOf b) := by
  unfold basesOf
  split
  · assumption
  · exact packedBases_disjoint

/-- Every choice of bases that R6 admits is reached. -/
theorem basesOf_of_disjoint {b : Bases} (h : RegionsDisjoint b) : basesOf b = b := if_pos h

/-- REG_OFFSET is injective (R6). -/
theorem regOffset_injective : Function.Injective regOffset := fun _ _ h => Fin.ext (Config.regOffsetPerm.injective h)

/-- An address is an element's of one of the four memories, within its count. -/
theorem platformAddress_eq_some {sp : Space} {i x : Nat} (h : platformAddress sp i = some x) :
    sp ∈ memorySpaces ∧ i < elementCount sp ∧ x = elementStart platformBases sp i := by
  unfold platformAddress at h
  split at h <;> simp_all

/-- Elements of two spaces share no byte of the platform's addresses (R52). -/
theorem platformAddress_apart {sp sq : Space} {i j x y : Nat} (hx : platformAddress sp i = some x)
    (hy : platformAddress sq j = some y) (hne : sp ≠ sq) : Apart x (elementBytes sp) y (elementBytes sq) := by
  obtain ⟨mx, ix, rfl⟩ := platformAddress_eq_some hx
  obtain ⟨my, iy, rfl⟩ := platformAddress_eq_some hy
  exact basesOf_disjoint _ sp mx sq my hne i ix j iy

end Sys2Proof.Machine
end

