-- ==== Sys2Proof/Laws/Step.lean ====
section
/-!
SUPPORT. Everything one step can do: one inversion lemma for `step`, one for the turn of the agents other than ENV.
-/

namespace Sys2Proof.Machine

variable {s t : State}

/-- ENV has taken its turn: the rest of the schedule is left. -/
def State.envTaken (s : State) : State := { s with env := s.env.tail }

/-- ENV leaves the step to the other agents. -/
abbrev State.Passing (s : State) : Prop := s.env = [] ∨ s.env.head? = some .pass

theorem State.envTaken_nil (h : s.env = []) : s.envTaken = s := by rw [State.envTaken, h, List.tail_nil, ← h]

theorem step_of_passing (h : s.Passing) : step s = agentTurn s.envTaken := by
  unfold step takeTurn
  rcases h with h | h
  · rw [State.envTaken_nil h, h]
  · unfold State.envTaken
    cases he : s.env <;> simp_all

/-- ENGINE's step (R92). -/
theorem step_engine {k : InitStep} (h : s.EngineNext k) : step s = .next (engineStep k s.envTaken) := by
  rw [step_of_passing h.2.2]
  simp [agentTurn, State.envTaken, h.1, h.2.1]

/-- The HOST's step (R113). -/
theorem step_host {c : Command} (h : s.HostNext c) : step s = performCommand c s.envTaken := by
  obtain ⟨⟨hf, he⟩, hp, henv⟩ := h
  rw [step_of_passing henv]
  cases hq : s.pending <;> simp_all [agentTurn, State.envTaken]

/-- FRAME's step (R121). -/
theorem step_frame {rest : List EnvTurn} (he : s.env = .frame :: rest) (hf : s.fault = none) :
    step s = .next (frameEvent s.envTaken) := by
  simp [step, takeTurn, frameTurn, he, hf, State.envTaken]

/-- The platform's reset (R141). -/
theorem step_reset {rest : List EnvTurn} (he : s.env = .reset :: rest) : step s = .next (platformReset s.envTaken) := by
  simp [step, takeTurn, he, State.envTaken]

theorem core_run_succ {M : Host.Core} {n : Nat} {x y : M.State} (h : M.step x = .next y) : M.run (n + 1) x = M.run n y := by
  simp [Host.Core.run, h]

theorem runSteps_zero : runSteps 0 s = .next s := rfl

/-- One step of a longer run. -/
theorem runSteps_succ {n : Nat} (h : step s = .next t) : runSteps (n + 1) s = runSteps n t :=
  core_run_succ (M := Sys2Proof.core) h

/-- What HOST, ENGINE and the idle machine can do in one step. -/
theorem agentTurn_cases (h : agentTurn s = .next t) : s.fault = none ∧
    ((∃ k, s.engine = .step k ∧ t = engineStep k s) ∨
     (s.engine = .idle ∧ ∃ c rest, s.pending = .command c :: rest ∧
       ((∃ i, decode c = .ok i ∧ t = (commandEffect i s).retire) ∨
        (∃ why, decode c = .illegal why ∧ t = (s.raise (.illegalCommand c.cw)).retire))) ∨
     (s.engine = .idle ∧ s.pending = [] ∧ t = frameEvent s)) := by
  unfold agentTurn at h
  split at h
  · cases h
  · cases h; exact ⟨‹_›, .inl ⟨_, ‹_›, rfl⟩⟩
  · rename_i c rest hf he hp
    refine ⟨hf, .inr (.inl ⟨he, c, rest, hp, ?_⟩)⟩
    unfold performCommand at h
    split at h
    · rename_i i hi
      rw [exec_eq_hostCommand, hostCommand_open ⟨hf, he⟩] at h
      cases h; exact .inl ⟨i, hi, rfl⟩
    · rename_i why hi
      rw [hostCommand_open ⟨hf, he⟩] at h
      cases h; exact .inr ⟨why, hi, rfl⟩
  · cases h
  · cases h; exact ⟨‹_›, .inr (.inr ⟨‹_›, ‹_›, rfl⟩)⟩

/-- What a step can do: reset, FRAME, or another agent's turn. -/
theorem step_cases (h : step s = .next t) :
    (∃ rest, s.env = .reset :: rest ∧ t = platformReset s.envTaken) ∨
    (∃ rest, s.env = .frame :: rest ∧ s.fault = none ∧ t = frameEvent s.envTaken) ∨
    (agentTurn s.envTaken = .next t ∧ (s.env = [] ∨ ∃ rest, s.env = .pass :: rest)) := by
  unfold step takeTurn at h
  split at h
  · rename_i he
    refine .inr (.inr ⟨?_, .inl he⟩)
    rw [← h, State.envTaken, he, List.tail_nil, ← he]
  · rename_i rest he
    exact .inr (.inr ⟨by rw [← h, State.envTaken, he, List.tail_cons], .inr ⟨rest, he⟩⟩)
  · rename_i rest he
    unfold frameTurn at h
    split at h
    · cases h
    · cases h
      exact .inr (.inl ⟨rest, he, ‹_›, by rw [State.envTaken, he, List.tail_cons]⟩)
  · rename_i rest he
    cases h
    exact .inl ⟨rest, he, by rw [State.envTaken, he, List.tail_cons]⟩

end Sys2Proof.Machine
end

