-- ==== Sys2Proof/Tests/Slice0.lean ====
section
/-!
SUPPORT. Tests with expected results from spec/95_test_vectors.md and the tables of spec/30_encoding.md, and, for every statement of
Certificates/Slice0/Obligations.lean that has hypotheses, a witness that meets them.
-/

namespace Sys2Proof.Machine.Tests

/-! ### Ill-formed terms, one for each byte that PUTC.PRINT does not take (R67) -/

theorem test_illformed_putcPrint_bs : (Instr.putcPrint 0x08#8).wellFormed = false := by decide
theorem test_illformed_putcPrint_del : (Instr.putcPrint 0x7F#8).wellFormed = false := by decide
theorem test_illformed_putcPrint_cr : (Instr.putcPrint 0x0D#8).wellFormed = false := by decide
theorem test_illformed_putcPrint_lf : (Instr.putcPrint 0x0A#8).wellFormed = false := by decide

/-! ### Words written out as SP, W, B from the tables of R66 and R67 (95 §2.1) -/

theorem test_word_rdChar : decode ⟨0b000000000000#12, 4095, 0⟩ = .ok (.rdChar 4095) := by decide
theorem test_word_wrChar : decode ⟨0b000100000000#12, 200, 0x1F41⟩ = .ok (.wrChar 200 0x1F41#16) := by decide
theorem test_word_rdReg : decode ⟨0b001000000000#12, 30, 0⟩ = .ok (.rdReg 30) := by decide
theorem test_word_wrReg : decode ⟨0b001100000000#12, 12, 11⟩ = .ok (.wrReg 12 (toRegWord 11)) := rfl
theorem test_word_rdFont : decode ⟨0b010000000000#12, 2047, 0⟩ = .ok (.rdFont 2047) := by decide
theorem test_word_wrFont : decode ⟨0b010100000000#12, 2047, 0xA5⟩ = .ok (.wrFont 2047 0xA5#8) := by decide
theorem test_word_rdFb : decode ⟨0b011000000000#12, 3, 0⟩ = .ok (.rdFb 3) := by decide
theorem test_word_wrFb : decode ⟨0b011100000000#12, 3, 0xDEADBEEF⟩ = .ok (.wrFb 3 (BitVec.ofNat Config.fbW 0xDEADBEEF)) := rfl
theorem test_word_putcBs : decode ⟨0b100100001000#12, 0, 0⟩ = .ok .putcBs := by decide
theorem test_word_putcDel : decode ⟨0b100101111111#12, 0, 0⟩ = .ok .putcDel := by decide
theorem test_word_putcCr : decode ⟨0b100100001101#12, 0, 0⟩ = .ok .putcCr := by decide
theorem test_word_putcLf : decode ⟨0b100100001010#12, 0, 0⟩ = .ok .putcLf := by decide
theorem test_word_init : decode ⟨0b101100000000#12, 0, 0⟩ = .ok .init := by decide

/-- The bytes next to the four exact codes, and the ends of the range. -/
theorem test_words_putcPrint : ∀ b ∈ [0x00#8, 0x07#8, 0x09#8, 0x0B#8, 0x0C#8, 0x0E#8, 0x41#8, 0x7E#8, 0x80#8, 0xFF#8],
    decode ⟨0b1001#4 ++ b, 0, 0⟩ = .ok (.putcPrint b) := by decide

/-- The illegal words of R69 (a) to (d). -/
theorem test_words_reserved_space : decode ⟨0xC00#12, 0, 0⟩ = .illegal .reservedSpace ∧
    decode ⟨0xE00#12, 0, 0⟩ = .illegal .reservedSpace ∧ decode ⟨0xFFF#12, 0, 0⟩ = .illegal .reservedSpace := ⟨rfl, rfl, rfl⟩

theorem test_words_memory_byte : decode ⟨0x001#12, 0, 0⟩ = .illegal .memoryByte ∧
    decode ⟨0x480#12, 0, 0⟩ = .illegal .memoryByte ∧ decode ⟨0x7FF#12, 0, 0⟩ = .illegal .memoryByte := ⟨rfl, rfl, rfl⟩

theorem test_words_console_read : decode ⟨0x800#12, 0, 0⟩ = .illegal .consoleRead ∧
    decode ⟨0x880#12, 0, 0⟩ = .illegal .consoleRead ∧ decode ⟨0x8FF#12, 0, 0⟩ = .illegal .consoleRead := ⟨rfl, rfl, rfl⟩

theorem test_words_control_form : decode ⟨0xA00#12, 0, 0⟩ = .illegal .controlForm ∧
    decode ⟨0xB01#12, 0, 0⟩ = .illegal .controlForm ∧ decode ⟨0xBFF#12, 0, 0⟩ = .illegal .controlForm := ⟨rfl, rfl, rfl⟩

/-! ### The console, on the grids TV1, TV3 and TV4 of 95_test_vectors.md -/

/-- A buffer whose unlisted cells read 0, so that every written cell shows. -/
def zeros : Nat → CharCell := fun _ => 0

/-- The start rows of the scroll vectors: 'A', 'B' and 'C'. -/
def rows : Nat → CharCell := fun i => if i < 128 then 0x0F41#16 else if i < 256 then 0x0F42#16 else 0x0F43#16

/-- Vectors C1 to C4. -/
theorem test_putcBs_vectors : eraseBack zeros ⟨5, []⟩ = ⟨4, [(4, 0x8F20#16)]⟩ ∧ eraseBack zeros ⟨0, []⟩ = ⟨0, []⟩ ∧
    eraseBack zeros ⟨128, []⟩ = ⟨128, []⟩ ∧ eraseBack zeros ⟨383, []⟩ = ⟨382, [(382, 0x8F20#16)]⟩ := by decide

/-- Vectors C5 and C6. -/
theorem test_putcDel_vectors : eraseBack zeros ⟨129, []⟩ = ⟨128, [(128, 0x8F20#16)]⟩ ∧ eraseBack zeros ⟨256, []⟩ = ⟨256, []⟩ := by
  decide

/-- Vectors C7 to C9. -/
theorem test_putcCr_vectors : carriageReturn ⟨133, []⟩ = ⟨128, []⟩ ∧ carriageReturn ⟨127, []⟩ = ⟨0, []⟩ ∧
    carriageReturn ⟨0, []⟩ = ⟨0, []⟩ := by decide

/-- Vector C12 and, by the cells each blanks, C10 and C11. -/
theorem test_putcLf_vectors : lineFeed zeros ⟨127, []⟩ = ⟨128, [(127, 0x8F20#16)]⟩ ∧ (lineFeed zeros ⟨128, []⟩).c = 256 ∧
    [129, 130, 255, 256].map (Store.read zeros (lineFeed zeros ⟨130, []⟩).cb) = [0x0000#16, 0x8F20#16, 0x8F20#16, 0x0000#16] ∧
    [127, 128, 255, 256].map (Store.read zeros (lineFeed zeros ⟨128, []⟩).cb) = [0x0000#16, 0x8F20#16, 0x8F20#16, 0x0000#16] := by
  refine ⟨by decide, rfl, ?_⟩
  simp only [List.map, read_lineFeed]
  decide

/-- Vectors C13, C14, C20 to C22, C24 and C26. -/
theorem test_putcPrint_vectors : printByte zeros 0x41#8 ⟨0, []⟩ = ⟨1, [(0, 0x0F41#16)]⟩ ∧
    printByte zeros 0x5A#8 ⟨127, []⟩ = ⟨128, [(127, 0x0F5A#16)]⟩ ∧ printByte zeros 0x00#8 ⟨0, []⟩ = ⟨1, [(0, 0x0F00#16)]⟩ ∧
    printByte zeros 0x20#8 ⟨0, []⟩ = ⟨1, [(0, 0x0F20#16)]⟩ ∧ printByte zeros 0xFF#8 ⟨0, []⟩ = ⟨1, [(0, 0x0FFF#16)]⟩ ∧
    printByte zeros 0x0B#8 ⟨300, []⟩ = ⟨301, [(300, 0x0F0B#16)]⟩ := by decide

/-- Vector C18: on a grid of one row the byte just printed is discarded. -/
theorem test_scroll_one_row : (scrollCheck ⟨0, 128⟩ rows (printByte rows 0x5A#8 ⟨127, []⟩)).c = 0 ∧
    [0, 64, 127, 128].map (Store.read rows (scrollCheck ⟨0, 128⟩ rows (printByte rows 0x5A#8 ⟨127, []⟩)).cb) =
      [0x8F20#16, 0x8F20#16, 0x8F20#16, 0x0F42#16] := by
  refine ⟨rfl, ?_⟩
  simp only [List.map, read_scrollCheck (g := ⟨0, 128⟩) (x := printByte rows 0x5A#8 ⟨127, []⟩) (by decide), read_printByte]
  decide

/-- Vector C19: the cells below GRID_START stay, and the printed byte moves up one row. -/
theorem test_scroll_below_grid : (scrollCheck ⟨128, 384⟩ rows (printByte rows 0x5A#8 ⟨383, []⟩)).c = 256 ∧
    [0, 127, 128, 254, 255, 256, 383].map (Store.read rows (scrollCheck ⟨128, 384⟩ rows (printByte rows 0x5A#8 ⟨383, []⟩)).cb) =
      [0x0F41#16, 0x0F41#16, 0x0F43#16, 0x0F43#16, 0x0F5A#16, 0x8F20#16, 0x8F20#16] := by
  refine ⟨rfl, ?_⟩
  simp only [List.map, read_scrollCheck (g := ⟨128, 384⟩) (x := printByte rows 0x5A#8 ⟨383, []⟩) (by decide), read_printByte]
  decide

/-- Vector C17: the linefeed blanks the rest of the last row before the scroll moves it up. -/
theorem test_scroll_after_linefeed : (scrollCheck ⟨0, 384⟩ rows (lineFeed rows ⟨300, []⟩)).c = 256 ∧
    [0, 127, 128, 171, 172, 255, 256, 383].map (Store.read rows (scrollCheck ⟨0, 384⟩ rows (lineFeed rows ⟨300, []⟩)).cb) =
      [0x0F42#16, 0x0F42#16, 0x0F43#16, 0x0F43#16, 0x8F20#16, 0x8F20#16, 0x8F20#16, 0x8F20#16] := by
  refine ⟨rfl, ?_⟩
  simp only [List.map, read_scrollCheck (g := ⟨0, 384⟩) (x := lineFeed rows ⟨300, []⟩) (by decide), read_lineFeed]
  decide

/-- The listed actions (R87) on vectors C5, C7, C12 and C14. -/
theorem test_listed_actions : listedAction zeros 0x7F#8 ⟨129, []⟩ = ⟨128, [(128, 0x8F20#16)]⟩ ∧
    listedAction zeros 0x0D#8 ⟨133, []⟩ = ⟨128, []⟩ ∧ listedAction zeros 0x0A#8 ⟨127, []⟩ = ⟨128, [(127, 0x8F20#16)]⟩ ∧
    listedAction zeros 0x5A#8 ⟨127, []⟩ = ⟨128, [(127, 0x0F5A#16)]⟩ := by decide

/-! ### INIT -/

/-- Vectors I1 to I10. -/
theorem test_init_packs_rom_rows :
    [0x00#8, 0xFF#8, 0x81#8, 0x03#8, 0x3C#8, 0xAA#8, 0x55#8, 0xC3#8, 0x04#8, 0x18#8].map packRow =
      [0x00#8, 0x7E#8, 0x40#8, 0x00#8, 0x1E#8, 0x54#8, 0x2A#8, 0x60#8, 0x02#8, 0x0C#8] := by decide

/-- Vectors I11 to I14, with a ROM whose rows are all 0xFF. -/
theorem test_init_font_bytes : [12, 15, 1040, 1052, 1055, 2031, 2032, 2047].map (uploadedByte fun _ _ => 0xFF#8) =
    [0x00#8, 0x00#8, 0x7E#8, 0x00#8, 0x00#8, 0x00#8, 0xFF#8, 0xFF#8] := by decide

/-! ### Steps -/

/-- The first step after reset performs each of the 14 rows' words, operands 0: vectors B1 to B17 where they apply, I23 and C27. -/
theorem test_every_row_runs_first : ∀ w ∈ [0x000, 0x100, 0x200, 0x300, 0x400, 0x500, 0x600, 0x700, 0x908, 0x97F, 0x90D, 0x90A, 0x941, 0xB00],
    ∃ t, step (State.reset.withFetchWord 16 w) = .next t := by
  intro w hw
  simp only [List.mem_cons, List.not_mem_nil, or_false] at hw
  rcases hw with rfl | rfl | rfl | rfl | rfl | rfl | rfl | rfl | rfl | rfl | rfl | rfl | rfl | rfl <;> exact ⟨_, rfl⟩

/-- The words of RD.CHAR and WR.CHAR with bit 16 set, which is IDX 1. -/
theorem test_bit_16_is_idx : (∃ t, step (State.reset.withFetchWord 24 0x10000) = .next t ∧ t.returned = some (.char (State.reset.cell 1))) ∧
    ∃ t, step (State.reset.withFetchWord 24 0x10100) = .next t ∧ t.fault = none := ⟨⟨_, rfl, rfl⟩, _, rfl, rfl⟩

/-- Vector C27, from reset. -/
theorem test_putc_before_init : step (State.reset.withFetchWord 16 0x941) =
    .next { State.reset with fault := some (.useBeforeInit 0x41#8) } := rfl

/-- Vector I23. -/
theorem test_init_from_reset : step (State.reset.withFetchWord 16 0xB00) = .next { State.reset with engine := .step .s1 } := rfl

/-- Vector B5: IDX 31 is in bits 47:16 of the host's numbering. -/
theorem test_rdReg_past_the_registers : step (State.reset.withFetchWord 48 (31 * 65536 + 0x200)) =
    .next { State.reset with fault := some (.badIndex .reg 31) } := rfl

/-- Vector B10. -/
theorem test_rdFont_past_the_font : step (State.reset.withFetchWord 48 (2048 * 65536 + 0x400)) =
    .next { State.reset with fault := some (.badIndex .font 2048) } := rfl

/-- Vector B16. -/
theorem test_illegal_word_raises : step (State.reset.withFetchWord 16 0xC00) =
    .next { State.reset with fault := some (.illegalCommand 0xC00#12) } := rfl

/-! ### Platform addresses (R45, R46) -/

theorem test_element_bytes : elementBytes .char = 2 ∧ elementBytes .font = 1 := by decide

theorem test_platform_address_bounds : platformAddress .reg 31 = none ∧ platformAddress .font 2048 = none ∧ platformAddress .con 0 = none ∧
    platformAddress .font 3 = some (platformBases.font + 3) := ⟨rfl, rfl, rfl, rfl⟩

/-! ### The assembly syntax (R71, R72; 95 W2 and P1) -/

theorem test_assemble_write :
    assemble ['w', 'r', '.', 'r', 'e', 'g', ' ', 'Y', 'S', 'C', 'A', 'L', 'E', ',', ' ', '1', '1', ' ', ';', ' ', 'x'] =
      some (.commands [⟨0x300#12, 12, 11⟩]) := by decide

theorem test_assemble_puts :
    assemble ['p', 'u', 't', 's', ' ', '"', 'H', ',', '\\', 'r', '\\', 'n', '"'] =
      some (.commands [⟨0x948#12, 0, 0⟩, ⟨0x92C#12, 0, 0⟩, ⟨0x90D#12, 0, 0⟩, ⟨0x90A#12, 0, 0⟩]) := by decide

theorem test_disassemble_putc : disassemble .putcBs = ['p', 'u', 't', 'c', ' ', '0', 'x', '0', '8'] := by decide

/-! ### States for the witnesses -/

/-- A HOST command to issue. -/
def hostState (c : Command) : State := { State.reset with pending := [.command c] }

/-- Ready, the cursor at `c` cells past the grid's start. -/
def readyAt (c : Nat) : State := { State.reset with initDone := true, cursor := Config.gridStart + c }

/-- Ready, the cursor in the grid's last cell. -/
def readyAtEnd : State := { State.reset with initDone := true, cursor := Config.cap - 1 }

/-- ENGINE at step k. -/
def engineAt (k : InitStep) : State := { State.reset with engine := .step k }

/-- A recorded fault. -/
def faulted : State := { State.reset with fault := some (.illegalCommand 0xC00#12) }

/-- ENV's turns still to come. -/
def withEnv (e : List EnvTurn) (s : State) : State := { s with env := e }

theorem readyAt_ready (c : Nat) : (readyAt c).Ready := ⟨⟨rfl, rfl⟩, rfl⟩

theorem readyAt_inGrid {c : Nat} (h : c < 128) : (readyAt c).InGrid := by
  have := Config.gridStart_row_le_cap
  exact ⟨Nat.le_add_right _ _, by show Config.gridStart + c < _; omega⟩

theorem readyAtEnd_ready : readyAtEnd.Ready := ⟨⟨rfl, rfl⟩, rfl⟩

theorem readyAtEnd_inGrid : readyAtEnd.InGrid := by
  have := Config.gridStart_row_le_cap
  exact ⟨by show _ ≤ Config.cap - 1; omega, by show Config.cap - 1 < _; omega⟩

theorem or127_readyAt : ((readyAt 0).cursor ||| 127) = Config.gridStart + 127 := by
  show (Config.gridStart + 0) ||| 127 = _
  have h := Nat.two_pow_add_eq_or_of_lt (i := 7) (b := 127) (by decide) Config.gridStartRow
  have e : 2 ^ 7 * Config.gridStartRow = Config.gridStart := Nat.mul_comm _ _
  rw [e] at h
  exact h.symm

theorem or127_readyAtEnd : (readyAtEnd.cursor ||| 127) + 1 = Config.cap := by
  show ((Config.cap - 1) ||| 127) + 1 = _
  have h := Nat.two_pow_add_eq_or_of_lt (i := 7) (b := 127) (by decide) (Config.gridStartRow + Config.gridMoreRows)
  have e : 2 ^ 7 * (Config.gridStartRow + Config.gridMoreRows) + 127 = Config.cap - 1 := by
    simp only [Config.cap, Config.capOf]; omega
  have hpos := Config.gridStart_row_le_cap
  rw [← e, h, Nat.or_assoc, Nat.or_self, ← h, e]
  omega

/-! ### Witnesses: the hypotheses of the statements, met together -/

theorem test_witness_DecodeOfEncodeIsTheInstruction : (Instr.putcPrint 0x41#8).wellFormed = true ∧
    (Instr.wrChar 200 0x1F41#16).wellFormed = true := by decide

theorem test_witness_DecodedWordEncodesBack : decode ⟨0x941#12, 7, 9⟩ = .ok (.putcPrint 0x41#8) := by decide

theorem test_witness_IllegalWordsAreTheFourRanges : decode ⟨0xC00#12, 0, 0⟩ = .illegal .reservedSpace ∧ State.reset.Open ∧
    ∀ w ∈ [0x000#12, 0x700#12, 0x900#12, 0x9FF#12, 0xB00#12], ∀ why, decode ⟨w, 0, 0⟩ ≠ .illegal why :=
  ⟨by decide, ⟨rfl, rfl⟩, by
    intro w hw why
    simp only [List.mem_cons, List.not_mem_nil, or_false] at hw
    rcases hw with rfl | rfl | rfl | rfl | rfl <;> cases why <;> decide⟩

theorem test_witness_PutcBytesFallInFiveClasses : (0x90D#12 : CmdWord).toNat / 256 = 9 ∧ (0x941#12 : CmdWord).toNat / 256 = 9 := by
  decide

theorem test_witness_StepPerformsTheDecodedCommand :
    (hostState ⟨0xB00#12, 0, 0⟩).HostNext ⟨0xB00#12, 0, 0⟩ ∧
    (withEnv [.pass, .frame] (hostState ⟨0xB00#12, 0, 0⟩)).HostNext ⟨0xB00#12, 0, 0⟩ ∧ decode ⟨0xB00#12, 0, 0⟩ = .ok .init :=
  ⟨⟨⟨rfl, rfl⟩, rfl, .inl rfl⟩, ⟨⟨rfl, rfl⟩, rfl, .inr rfl⟩, by decide⟩

theorem test_witness_PlacedWordIsPerformedNext : decodeTableWord 48 (30 * 65536 + 0x200) = some (.rdReg 30) := by decide

theorem test_witness_CommandIsStoppedHeldOrPerformed : faulted.fault = some (.illegalCommand 0xC00#12) ∧
    (engineAt .s4).fault = none ∧ (engineAt .s4).engine ≠ .idle ∧ State.reset.Open := ⟨rfl, rfl, by decide, rfl, rfl⟩

theorem test_witness_IllegalCommandIsHeldThenRaises : decode ⟨0x800#12, 0, 0⟩ = .illegal .consoleRead ∧
    (hostState ⟨0x800#12, 0, 0⟩).HostNext ⟨0x800#12, 0, 0⟩ ∧ (engineAt .s10).fault = none ∧ (engineAt .s10).engine ≠ .idle :=
  ⟨by decide, ⟨⟨rfl, rfl⟩, rfl, .inl rfl⟩, rfl, by decide⟩

theorem test_witness_PartialAccessIsRefused : ∀ s ∈ [({ State.reset with pending := [.partialAccess .char] } : State)],
    s.Open ∧ s.env = [] ∧ s.pending = .partialAccess .char :: [] := by
  intro s hs
  obtain rfl := List.mem_singleton.1 hs
  exact ⟨⟨rfl, rfl⟩, rfl, rfl⟩

/-- The last index of each fixed space and the first past it. -/
theorem test_witness_BadIndexExactlyPastTheCount : memoryOperand (.rdReg 30) = some (.reg, 30) ∧ ¬ elementCount .reg ≤ 30 ∧
    memoryOperand (.rdReg 31) = some (.reg, 31) ∧ elementCount .reg ≤ 31 ∧ memoryOperand (.wrFont 2048 0) = some (.font, 2048) ∧
    elementCount .font ≤ 2048 ∧ State.reset.Open := ⟨rfl, by decide, rfl, by decide, rfl, by decide, rfl, rfl⟩

/-- RdCharReturnsTheCell and WrCharWritesOneCell: the first cell, the last cell, and the first index past it. -/
theorem test_witness_CharAccess : State.reset.Open ∧ 0 < Config.charbufCells ∧ Config.charbufCells - 1 < Config.charbufCells ∧
    Config.charbufCells ≤ Config.charbufCells ∧ ∀ e ∈ State.reset.cb, e.1 ≠ 0 := by
  have := Config.statusCells_le_charbufCells
  simp only [Config.statusCells] at this
  exact ⟨⟨rfl, rfl⟩, by omega, by omega, le_rfl, nofun⟩

/-- RdRegReturnsThePendingCopy and WrRegWritesThePendingCopy: the first and the last register, and the first index past them. -/
theorem test_witness_RegAccess : State.reset.Open ∧ regCursv.val = 0 ∧ regMode.val = 30 ∧ 31 ≤ 31 := ⟨⟨rfl, rfl⟩, rfl, rfl, le_rfl⟩

/-- RdFontReturnsTheByte and WrFontWritesOneByte; an INIT can follow the write. -/
theorem test_witness_FontAccess : State.reset.Open ∧ 0 < 2048 ∧ 2047 < 2048 ∧ 2048 ≤ 2048 ∧ State.reset.NoReset :=
  ⟨⟨rfl, rfl⟩, by decide, by decide, le_rfl, nofun⟩

/-- The INIT run of RdFontReturnsTheByte and RdFbReturnsTheWord, with FRAMEs and without. -/
theorem test_witness_InitRun : ∀ e ∈ [[], [EnvTurn.frame, .pass, .frame]],
    (withEnv e (engineAt .s1)).fault = none ∧ (withEnv e (engineAt .s1)).engine = .step .s1 ∧ (withEnv e (engineAt .s1)).NoReset := by
  intro e he
  exact ⟨rfl, rfl, (by decide : ∀ e ∈ [[], [EnvTurn.frame, .pass, .frame]], EnvTurn.reset ∉ e) e he⟩

/-- RdFbReturnsTheWord and WrFbWritesOneWord. -/
theorem test_witness_FbAccess : State.reset.Open ∧ 0 < Config.fbWords ∧ Config.fbWords - 1 < Config.fbWords ∧
    Config.fbWords ≤ Config.fbWords := by
  have := Config.one_le_fbWords
  exact ⟨⟨rfl, rfl⟩, by omega, by omega, le_rfl⟩

theorem test_witness_IncAndDecRegWrap : ∀ r : Reg,
    ∀ s ∈ [({ State.reset with pending := (incReg r (State.reset.regP r)).map HostItem.command } : State)],
    ∀ u ∈ [({ State.reset with env := [.pass, .frame], pending := (decReg r (State.reset.regP r)).map HostItem.command } : State)],
      (s.Open ∧ s.env = [] ∧ s.pending = (incReg r (s.regP r)).map HostItem.command) ∧
      u.Open ∧ u.env = [.pass, .frame] ∧ u.pending = (decReg r (u.regP r)).map HostItem.command := by
  intro r s hs u hu
  obtain rfl := List.mem_singleton.1 hs
  obtain rfl := List.mem_singleton.1 hu
  exact ⟨⟨⟨rfl, rfl⟩, rfl, rfl⟩, ⟨rfl, rfl⟩, rfl, rfl⟩

/-- PUTC.BS, PUTC.DEL and PUTC.CR, at column 0 and at column 127. -/
theorem test_witness_BackspaceAndDeleteBlankOneCell : (readyAt 0).Ready ∧ (readyAt 0).InGrid ∧ (readyAt 0).cursor &&& 127 = 0 ∧
    readyAtEnd.Ready ∧ readyAtEnd.InGrid ∧ readyAtEnd.cursor &&& 127 ≠ 0 := by
  refine ⟨readyAt_ready 0, readyAt_inGrid (by decide), ?_, readyAtEnd_ready, readyAtEnd_inGrid, ?_⟩
  · rw [show (127 : Nat) = 2 ^ 7 - 1 by rfl, Nat.and_two_pow_sub_one_eq_mod]
    exact Config.gridStart_mod
  · rw [show (127 : Nat) = 2 ^ 7 - 1 by rfl, Nat.and_two_pow_sub_one_eq_mod]
    have h1 := Config.cap_mod
    have h2 := Config.gridStart_row_le_cap
    show (Config.cap - 1) % 128 ≠ 0
    omega

theorem test_witness_CarriageReturnGoesToRowStart : (readyAt 127).Ready ∧ (readyAt 127).InGrid :=
  ⟨readyAt_ready 127, readyAt_inGrid (by decide)⟩

/-- The last row, from its last cell; and the first row where the grid has more than one (R6 allows a grid of one row, TV3). -/
theorem test_witness_LinefeedBlanksTheRestOfTheRow :
    (readyAtEnd.Ready ∧ readyAtEnd.InGrid ∧ (readyAtEnd.cursor ||| 127) + 1 = Config.cap) ∧
    (Config.gridStart + 128 < Config.cap →
      (readyAt 0).Ready ∧ (readyAt 0).InGrid ∧ ((readyAt 0).cursor ||| 127) + 1 < Config.cap) :=
  ⟨⟨readyAtEnd_ready, readyAtEnd_inGrid, or127_readyAtEnd⟩,
    fun h => ⟨readyAt_ready 0, readyAt_inGrid (by decide), by rw [or127_readyAt]; omega⟩⟩

/-- The same states serve CR then LF. -/
theorem test_witness_CrThenLfBlanksTheWholeRow :
    readyAtEnd.Ready ∧ readyAtEnd.InGrid ∧ (readyAtEnd.cursor ||| 127) + 1 = Config.cap :=
  test_witness_LinefeedBlanksTheRestOfTheRow.1

theorem test_witness_PrintWritesTheGlyphCell : (Instr.putcPrint 0x41#8).wellFormed = true ∧
    (readyAt 0).Ready ∧ (readyAt 0).InGrid ∧ (readyAt 0).cursor + 1 < Config.cap ∧
    readyAtEnd.Ready ∧ readyAtEnd.InGrid ∧ readyAtEnd.cursor + 1 = Config.cap := by
  have := Config.gridStart_row_le_cap
  refine ⟨by decide, readyAt_ready 0, readyAt_inGrid (by decide), ?_, readyAtEnd_ready, readyAtEnd_inGrid, ?_⟩
  · show Config.gridStart + 0 + 1 < _; omega
  · show Config.cap - 1 + 1 = _; omega

theorem test_witness_ScrollMovesEveryRowUp : readyAtEnd.Ready ∧ readyAtEnd.InGrid ∧
    (listedAction (Config.cbDraw readyAtEnd.epoch) 0x41#8 readyAtEnd.screen).c = Config.cap := by
  have := Config.gridStart_row_le_cap
  exact ⟨readyAtEnd_ready, readyAtEnd_inGrid, by show Config.cap - 1 + 1 = _; omega⟩

/-- A PUTC stopped, held, early and performed. The early state serves the USE_BEFORE_INIT clauses of the single bytes too. -/
theorem test_witness_PutcIsTheListedTransition : faulted.fault ≠ none ∧ (engineAt .s1).fault = none ∧ (engineAt .s1).engine ≠ .idle ∧
    State.reset.Open ∧ State.reset.initDone = false ∧ (readyAt 5).Ready :=
  ⟨by decide, rfl, by decide, ⟨rfl, rfl⟩, rfl, readyAt_ready 5⟩

theorem test_witness_HiddenStateIsNotReadable : memoryOperand (.rdReg 1) ≠ none ∧ State.reset.Open ∧
    ∀ u ∈ [({ State.reset with cursor := State.reset.cursor + 1, initDone := true, rega := State.reset.regp } : State)],
      u = { State.reset with cursor := u.cursor, initDone := u.initDone, rega := u.rega } := by
  refine ⟨by decide, ⟨rfl, rfl⟩, fun u hu => ?_⟩
  obtain rfl := List.mem_singleton.1 hu
  rfl

theorem test_witness_CursorRegistersFollowTheCursor : readyAtEnd.Ready ∧ readyAtEnd.InGrid := ⟨readyAtEnd_ready, readyAtEnd_inGrid⟩

theorem test_witness_PutcKeepsTheCursorInTheGrid : isPutc .putcCr = true ∧ (readyAt 0).Ready ∧ (readyAt 0).InGrid ∧
    ∃ t, exec .putcCr (readyAt 0) = .next t := ⟨rfl, readyAt_ready 0, readyAt_inGrid (by decide), _, rfl⟩

/-- With INIT complete, and before it. -/
theorem test_witness_PutcLeavesTheRestAlone : isPutc .putcLf = true ∧ (readyAt 0).Open ∧ (readyAt 0).InGrid ∧
    ∀ s ∈ [({ readyAt 0 with initDone := false } : State)], s.Open ∧ s.InGrid ∧ s.initDone = false := by
  refine ⟨rfl, ⟨rfl, rfl⟩, readyAt_inGrid (by decide), fun s hs => ?_⟩
  obtain rfl := List.mem_singleton.1 hs
  exact ⟨⟨rfl, rfl⟩, readyAt_inGrid (c := 0) (by decide), rfl⟩

theorem test_witness_InitStartsTheEngine : faulted.fault ≠ none ∧ State.reset.Open ∧ (engineAt .s10).fault = none ∧ (engineAt .s10).engine ≠ .idle :=
  ⟨by decide, ⟨rfl, rfl⟩, rfl, by decide⟩

/-- For every INIT step, with no turn of ENV's planned and with a turn that passes: EngineRunsTheStepsInOrder, InitStep1SetsTheCursor to
InitStep10GoesActive, and FontUploadIsIdempotent. -/
theorem test_witness_EngineNext : ∀ k : InitStep, (engineAt k).EngineNext k ∧ (withEnv [.pass] (engineAt k)).EngineNext k :=
  fun _ => ⟨⟨rfl, rfl, .inl rfl⟩, ⟨rfl, rfl, .inr rfl⟩⟩

/-- INIT step 2 with the cursor that step 1 leaves, and the ends of the ranges of steps 5, 6 and 8. -/
theorem test_witness_InitSteps : ({ engineAt .s2 with cursor := Config.gridStart } : State).EngineNext .s2 ∧
    regPal 0 = 14 ∧ regPal 15 = 29 ∧ regMode ∉ [regHstart, regHsyn, regHstop, regVstart, regVstop] ∧
    126 * 16 + 15 < 2048 ∧ 127 * 16 + 15 < 2048 ∧ 31 * 128 + 127 < 4096 :=
  ⟨⟨rfl, rfl, .inl rfl⟩, by decide, by decide, by decide, by decide, by decide, by decide⟩

theorem test_witness_WholeInitLeavesTheKnownState :
    (engineAt .s1).fault = none ∧ (engineAt .s1).engine = .step .s1 ∧ (engineAt .s1).env = [] := ⟨rfl, rfl, rfl⟩

theorem test_witness_SecondInitRestoresWhatInitWrites : ∀ u ∈ [(platformReset (engineAt .s1)).setFontByte 7 0x55#8],
    ∀ v ∈ [({ u with engine := .step .s1 } : State)], (engineAt .s1).fault = none ∧ (engineAt .s1).engine = .step .s1 ∧
      (engineAt .s1).env = [] ∧ v.fault = none ∧ v.engine = .step .s1 ∧ v.env = [] := by
  intro u hu v hv
  obtain rfl := List.mem_singleton.1 hu
  obtain rfl := List.mem_singleton.1 hv
  exact ⟨rfl, rfl, rfl, rfl, rfl, rfl⟩

theorem test_witness_HoldEndsWithinTenEngineSteps : ∀ k : InitStep, ∀ s ∈ [withEnv [.frame, .pass, .frame] (engineAt k)],
    s.fault = none ∧ s.engine ≠ .idle ∧ s.NoReset := by
  intro k s hs
  obtain rfl := List.mem_singleton.1 hs
  exact ⟨rfl, nofun, by show EnvTurn.reset ∉ [_, _, _]; decide⟩

theorem test_witness_FrameLatchesEveryRegister : (withEnv [.frame] (engineAt .s9)).env = .frame :: [] ∧
    (withEnv [.frame] (engineAt .s9)).fault = none ∧ (withEnv [.frame] faulted).env = .frame :: [] ∧
    (withEnv [.frame] faulted).fault ≠ none := ⟨rfl, rfl, rfl, by decide⟩

theorem test_witness_ActiveRegistersChangeOnlyAtFrame : ∀ s ∈ [hostState ⟨0x300#12, 30, 7⟩],
    (∃ t, step s = .next t) ∧ s.frameNext = false ∧ s.resetNext = false := by
  intro s hs
  obtain rfl := List.mem_singleton.1 hs
  exact ⟨⟨_, rfl⟩, rfl, rfl⟩

theorem test_witness_CursorHasTwoWriters : ∃ t, step { engineAt .s1 with cursor := Config.gridStart + 1 } = .next t ∧
    t.cursor ≠ Config.gridStart + 1 := ⟨_, rfl, by show Config.gridStart ≠ _; omega⟩

theorem test_witness_VsynIsTheHostsAlone : ∃ t, step (platformReset (withEnv [.pass] (hostState ⟨0x300#12, 7,
      (Config.regpDraw 1 regVsyn).toNat + 1⟩))) = .next t ∧ t.regP regVsyn ≠ Config.regpDraw 1 regVsyn := by
  refine ⟨_, rfl, fun h => ?_⟩
  have h := (State.regP_setReg _ _ _ _).symm.trans h
  rw [if_pos (by rfl)] at h
  have h := congrArg BitVec.toNat h
  have hw := Nat.pow_le_pow_right (n := 2) (by decide) Config.eight_le_regW
  rw [BitVec.toNat_ofNat] at h
  have hlt := (Config.regpDraw 1 regVsyn).isLt
  rcases Nat.lt_or_ge ((Config.regpDraw 1 regVsyn).toNat + 1) (2 ^ Config.regW) with hl | hl
  · rw [Nat.mod_eq_of_lt hl] at h; omega
  · have : (Config.regpDraw 1 regVsyn).toNat + 1 = 2 ^ Config.regW := by omega
    rw [this, Nat.mod_self] at h; omega

theorem test_witness_FaultIsSticky : faulted.fault = some (.illegalCommand 0xC00#12) ∧ faulted.resetNext = false ∧
    (withEnv [.reset] faulted).fault = some (.illegalCommand 0xC00#12) ∧ (withEnv [.reset] faulted).resetNext = true :=
  ⟨rfl, rfl, rfl, rfl⟩

theorem test_witness_InitDoneComesFromStep10 : (∃ t, step (engineAt .s10) = .next t ∧ (engineAt .s10).initDone = false ∧ t.initDone = true) ∧
    ∃ t, step (withEnv [.reset] (readyAt 0)) = .next t ∧ (withEnv [.reset] (readyAt 0)).initDone = true ∧ t.initDone = false :=
  ⟨⟨_, rfl, rfl, rfl⟩, _, rfl, rfl, rfl⟩

theorem test_witness_ResetClearsAndDraws : (withEnv [.reset, .frame] faulted).env = .reset :: [.frame] := rfl

theorem test_witness_FinishedMachineOnlyLatches : State.reset.Finished ∧ State.reset.env = [] := ⟨⟨rfl, rfl, rfl⟩, rfl⟩

theorem test_witness_EveryStepKeepsTheInvariant : (readyAt 0).Inv ∧ ∃ t, step (readyAt 0) = .next t :=
  ⟨⟨Memory.wf_reset, fun _ => readyAt_inGrid (by decide)⟩, _, rfl⟩

end Sys2Proof.Machine.Tests
end

section
/-!
What one step of TCON can do, as the five events a next state comes from, and what each event leaves of the cursor, `initDone`, the
registers and the memories (spec/10_state.md). Built on the inversions of Laws/Step.lean and Laws/Host.lean.
-/

namespace Sys2Proof.Machine

variable {s t u : State} {i : Instr} {k : InitStep}

/-! ### What a performed command can do -/

/-- The action of a PUTC on the screen (R87); a command that is no PUTC has none. -/
def putcAction (i : Instr) (dflt : Nat → CharCell) (x : Screen) : Screen :=
  match i with
  | .putcBs | .putcDel => eraseBack dflt x
  | .putcCr => carriageReturn x
  | .putcLf => lineFeed dflt x
  | .putcPrint b => printByte dflt b x
  | .rdChar _ | .wrChar _ _ | .rdReg _ | .wrReg _ _ | .rdFont _ | .wrFont _ _ | .rdFb _ | .wrFb _ _ | .init => x

/-- The screen after PUTC `i`: its action, then the scroll check (R87). -/
def putcScreen (i : Instr) (s : State) : Screen :=
  scrollCheck consoleGrid (Config.cbDraw s.epoch) (putcAction i (Config.cbDraw s.epoch) s.screen)

/-- What performing a command can leave: a raise, a reply, or the one write that command makes. -/
inductive CommandLeaves (s : State) : Instr → State → Prop
  | raise {i : Instr} (f : FaultInfo) : CommandLeaves s i (s.raise f)
  | reply {i : Instr} (v : Reply) : CommandLeaves s i (s.reply v)
  | wrChar {idx : Nat} {data : CharCell} (h : idx < Config.charbufCells) :
      CommandLeaves s (.wrChar idx data) (s.setCell idx data)
  | wrReg {idx : Nat} {data : RegWord} (h : idx < Config.regCount) :
      CommandLeaves s (.wrReg idx data) (s.setReg (regOfIdx idx) data)
  | wrFont {idx : Nat} {data : Byte} (h : idx < Config.fontBytes) :
      CommandLeaves s (.wrFont idx data) (s.setFontByte idx data)
  | wrFb {idx : Nat} {data : FbWord} (h : idx < Config.fbWords) :
      CommandLeaves s (.wrFb idx data) (s.setFbWord idx data)
  | putc {i : Instr} (hi : isPutc i = true) (hd : s.initDone = true) : CommandLeaves s i (s.putScreen (putcScreen i s))
  | init : CommandLeaves s .init { s with engine := .step .s1 }

theorem commandLeaves_checkIndex {sp : Space} {idx : Nat} {done : State}
    (h : idx < elementCount sp → CommandLeaves s i done) : CommandLeaves s i (checkIndex sp idx s done) := by
  rcases Nat.lt_or_ge idx (elementCount sp) with hlt | hge
  · rw [checkIndex_of_lt hlt]; exact h hlt
  · rw [checkIndex_of_le hge]; exact .raise _

theorem commandLeaves_putChar {b : Byte} {action : (Nat → CharCell) → Screen → Screen} (hi : isPutc i = true)
    (ha : putcAction i = action) : CommandLeaves s i (putChar b action s) := by
  subst ha
  cases hd : s.initDone with
  | false => rw [putChar_early hd]; exact .raise _
  | true => rw [putChar_ready hd]; exact .putc hi hd

theorem commandEffect_leaves (i : Instr) (s : State) : CommandLeaves s i (commandEffect i s) := by
  cases i with
  | rdChar | rdReg | rdFont | rdFb => exact commandLeaves_checkIndex fun _ => .reply _
  | wrChar => exact commandLeaves_checkIndex .wrChar
  | wrReg => exact commandLeaves_checkIndex .wrReg
  | wrFont => exact commandLeaves_checkIndex .wrFont
  | wrFb => exact commandLeaves_checkIndex .wrFb
  | putcBs | putcDel | putcCr | putcLf | putcPrint => exact commandLeaves_putChar rfl rfl
  | init => exact .init

theorem CommandLeaves.rega_eq (h : CommandLeaves s i u) : u.rega = s.rega := by cases h <;> rfl

theorem CommandLeaves.initDone_eq (h : CommandLeaves s i u) : u.initDone = s.initDone := by cases h <;> rfl

theorem CommandLeaves.cursor_eq (h : CommandLeaves s i u) (hi : isPutc i = false) : u.cursor = s.cursor := by
  cases h with
  | putc hp => exact absurd (hp.symm.trans hi) (by decide)
  | _ => rfl

theorem regOfIdx_inj {idx : Nat} {r : Reg} (h : idx < Config.regCount) (hr : regOfIdx idx = r) : idx = r.val := by
  rw [← hr]; exact (Nat.mod_eq_of_lt h).symm

/-- A command that changes the pending VSYN is a WR.REG of register 7; a PUTC writes XCUR and YCUR alone (R86). -/
theorem CommandLeaves.regP_vsyn (h : CommandLeaves s i u) (hne : u.regP regVsyn ≠ s.regP regVsyn) :
    ∃ v, i = .wrReg 7 v := by
  cases h with
  | @wrReg idx data hlt =>
    have hr : regVsyn = regOfIdx idx := by
      by_contra hr
      exact hne (by rw [State.regP_setReg, if_neg hr])
    obtain rfl : idx = 7 := regOfIdx_inj hlt hr.symm
    exact ⟨data, rfl⟩
  | putc => exact absurd (State.regP_putScreen ..) hne
  | _ => exact absurd rfl hne

/-! ### What an ENGINE step leaves -/

theorem engineStep_cursor (k : InitStep) (s : State) :
    (engineStep k s).cursor = if k = .s1 then Config.gridStart else s.cursor := by cases k <;> rfl

theorem engineStep_initDone (k : InitStep) (s : State) :
    (engineStep k s).initDone = if k = .s10 then true else s.initDone := by cases k <;> rfl

/-- No INIT step writes VSYN (R28, C1): step 3 leaves it out, and no other step's registers hold it. -/
theorem engineStep_regP_vsyn (k : InitStep) (s : State) : (engineStep k s).regP regVsyn = s.regP regVsyn := by
  rw [engineStep_regP]
  cases k with
  | s1 | s6 | s7 | s9 => rfl
  | s2 => exact initCursorRegs_regP ..
  | s3 => exact initTiming_regP ..
  | s4 => exact initPixels_regP ..
  | s5 => exact initPalette_regP ..
  | s8 => exact initStatusBar_regP ..
  | s10 => exact initActivate_regP ..

theorem engineStep_wf (k : InitStep) (h : Memory.wf s) : Memory.wf (engineStep k s) := by
  cases k with
  | s1 | s2 | s3 | s4 | s5 | s10 => exact h
  | s6 => exact Memory.wf_fillFont h _ (Nat.le_of_eq (Nat.zero_add _))
  | s7 | s9 => exact Memory.wf_fillFb h _ (Nat.le_of_eq (Nat.zero_add _))
  | s8 => exact Memory.wf_fillCells h _ ((Nat.zero_add _).trans_le Config.statusCells_le_charbufCells)

/-! ### The events a next state comes from -/

theorem State.resetNext_iff : s.resetNext = true ↔ ∃ rest, s.env = .reset :: rest := by
  unfold State.resetNext
  split <;> simp_all

/-- The five events that answer a next state, each with the agent whose step it is. -/
inductive StepEvent (s : State) : State → Prop
  | reset (h : s.resetNext = true) : StepEvent s (platformReset s.envTaken)
  | frame (h : s.frameNext = true) : StepEvent s (frameEvent s.envTaken)
  | engine {k : InitStep} (h : s.EngineNext k) : StepEvent s (engineStep k s.envTaken)
  | command {c : Command} {i : Instr} {u : State} (h : s.HostNext c) (hd : decode c = .ok i)
      (hu : CommandLeaves s.envTaken i u) : StepEvent s u.retire
  | illegal {c : Command} (h : s.HostNext c) : StepEvent s (s.envTaken.raise (.illegalCommand c.cw)).retire

theorem State.frameNext_of_idle (hp : s.Passing) (hf : s.Finished) : s.frameNext = true := by
  obtain ⟨hq, he, hf⟩ := hf
  unfold State.frameNext
  rcases hp with hp | hp
  · simp [hp, hq, he, hf]
  · obtain ⟨rest, hr⟩ := List.head?_eq_some_iff.1 hp
    simp [hr, hq, he, hf]

/-- Every next state comes from one of the five events. -/
theorem step_event (h : step s = .next t) : StepEvent s t := by
  rcases step_cases h with ⟨rest, henv, rfl⟩ | ⟨rest, henv, hf, rfl⟩ | ⟨hturn, henv⟩
  · exact .reset (State.resetNext_iff.2 ⟨rest, henv⟩)
  · exact .frame (by simp [State.frameNext, henv, hf])
  · have hp : s.Passing := henv.imp_right fun ⟨_, hr⟩ => by rw [hr, List.head?_cons]
    obtain ⟨hf, hagent⟩ := agentTurn_cases hturn
    rcases hagent with ⟨k, he, rfl⟩ | ⟨he, c, rest, hq, hdone⟩ | ⟨he, hq, rfl⟩
    · exact .engine ⟨hf, he, hp⟩
    · have hc : s.HostNext c := ⟨⟨hf, he⟩, List.head?_eq_some_iff.2 ⟨rest, hq⟩, hp⟩
      rcases hdone with ⟨i, hd, rfl⟩ | ⟨_, _, rfl⟩
      · exact .command hc hd (commandEffect_leaves i _)
      · exact .illegal hc
    · exact .frame (State.frameNext_of_idle hp ⟨hq, he, hf⟩)

end Sys2Proof.Machine
end

section
/-!
The invariant of every step: canonical memories, and the cursor in the grid once INIT step 1 has run (R17, R88, log entry 9).
-/

namespace Sys2Proof.Machine

variable {s t u : State} {i : Instr} {dflt : Nat → CharCell} {x : Screen}

/-! ### A PUTC's action and its scroll -/

/-- No action leaves the grid at its start: a row starts there, and the cursor goes back within its own row alone (R78 to R84). -/
theorem gridStart_le_putcAction (i : Instr) (h : Config.gridStart ≤ x.c) :
    Config.gridStart ≤ (putcAction i dflt x).c := by
  have hrow := Config.gridStart_mod
  have hlf := lt_nextRow x.c
  cases i with
  | putcBs | putcDel =>
    show Config.gridStart ≤ (eraseBack dflt x).c
    by_cases hc : x.c % 128 = 0
    · rwa [eraseBack_column_zero hc]
    · rw [eraseBack_c hc]; omega
  | putcCr => simp only [putcAction, carriageReturn, rowStart_eq]; omega
  | putcLf => simp only [putcAction, lineFeed]; omega
  | putcPrint => simp only [putcAction, printByte]; omega
  | _ => exact h

/-- From a cursor below CAP every action writes cells of the buffer alone, so CB stays canonical. -/
theorem putcAction_wf (i : Instr) (hw : Store.wf dflt Config.charbufCells x.cb) (hc : x.c < Config.cap) :
    Store.wf dflt Config.charbufCells (putcAction i dflt x).cb := by
  have hcap := Config.cap_le_charbufCells
  cases i with
  | putcBs | putcDel =>
    simp only [putcAction, eraseBack]
    split
    · exact hw
    · exact Store.wf_write hw (by omega)
  | putcLf =>
    have hrow := nextRow_le_of_lt Config.cap_mod hc
    have hlt := lt_nextRow x.c
    exact Store.wf_fill hw (by omega)
  | putcPrint => exact Store.wf_write hw (by omega)
  | _ => exact hw

theorem putcScreen_inGrid (i : Instr) (h : s.InGrid) :
    Config.gridStart ≤ (putcScreen i s).c ∧ (putcScreen i s).c < Config.cap :=
  scrollCheck_inGrid (gridStart_le_putcAction i h.1)

theorem putcScreen_wf (i : Instr) (hw : Memory.wf s) (h : s.InGrid) :
    Store.wf (Config.cbDraw s.epoch) Config.charbufCells (putcScreen i s).cb :=
  scrollCheck_wf (g := consoleGrid) (putcAction_wf i hw.1 h.2) (le_of_add_le_left Config.gridStart_row_le_cap)
    Config.cap_le_charbufCells

/-! ### Each event keeps the invariant -/

theorem CommandLeaves.inv (h : CommandLeaves s i u) (hs : s.Inv) : u.Inv := by
  obtain ⟨hw, hc⟩ := hs
  cases h with
  | raise | reply | wrReg => exact ⟨hw, hc⟩
  | wrChar hlt => exact ⟨Memory.wf_fillCells hw _ hlt, hc⟩
  | wrFont hlt => exact ⟨Memory.wf_fillFont hw _ hlt, hc⟩
  | wrFb hlt => exact ⟨Memory.wf_fillFb hw _ hlt, hc⟩
  | putc _ hd =>
    have hg : s.InGrid := hc (.inl hd)
    exact ⟨Memory.wf_putScreen hw (putcScreen_wf i hw hg), fun _ => putcScreen_inGrid i hg⟩
  | init => exact ⟨hw, fun h => hc (h.imp_right nofun)⟩

theorem gridStart_lt_cap : Config.gridStart < Config.cap := by
  have := Config.gridStart_row_le_cap
  omega

/-- ENGINE's step: step 1 puts the cursor at GRID_START, and a later one finds it in the grid. -/
theorem engineStep_inv {k : InitStep} (hk : s.engine = .step k) (hs : s.Inv) : (engineStep k s).Inv := by
  obtain ⟨hw, hc⟩ := hs
  refine ⟨engineStep_wf k hw, fun _ => ?_⟩
  unfold State.InGrid
  rw [engineStep_cursor]
  split
  · exact ⟨le_rfl, gridStart_lt_cap⟩
  · have hpast : pastFirstStep s.engine = true := by
      rw [hk]
      cases k with
      | s1 => contradiction
      | _ => rfl
    exact hc (.inr hpast)

theorem platformReset_inv (s : State) : (platformReset s).Inv :=
  ⟨Memory.wf_platformReset s, fun h => h.elim nofun nofun⟩

theorem StepEvent.inv (h : StepEvent s t) (hs : s.Inv) : t.Inv := by
  have hs' : s.envTaken.Inv := hs
  cases h with
  | reset => exact platformReset_inv _
  | frame | illegal => exact hs'
  | engine hk =>
    obtain ⟨_, hk, _⟩ := hk
    exact engineStep_inv hk hs'
  | command _ _ hu => exact hu.inv hs'

/-- Settles O59: the invariant is inductive, event by event. -/
theorem everyStepKeepsTheInvariant : Obligations.EveryStepKeepsTheInvariant :=
  fun _ _ hs h => (step_event h).inv hs

/-- Settles O60: nothing is written yet, and no INIT has run. -/
theorem resetMeetsTheInvariant : Obligations.ResetMeetsTheInvariant :=
  ⟨Memory.wf_reset, fun h => h.elim nofun nofun⟩

end Sys2Proof.Machine
end

section
/-!
Which step can change each element of the state, and what a reset leaves (spec/10_state.md sections 2, 3, 5 and 6).
-/

namespace Sys2Proof.Machine

variable {s u : State} {i : Instr}

/-! ### What a command shows the HOST -/

/-- Two states show the HOST the same: the last reply and the fault. -/
def SameAnswer (s u : State) : Prop := s.returned = u.returned ∧ s.fault = u.fault

theorem checkIndex_sameAnswer {sp : Space} {idx : Nat} {doneS doneU : State} (hs : SameAnswer s u)
    (hdone : SameAnswer doneS doneU) : SameAnswer (checkIndex sp idx s doneS) (checkIndex sp idx u doneU) := by
  rcases Nat.lt_or_ge idx (elementCount sp) with hlt | hge
  · rwa [checkIndex_of_lt hlt, checkIndex_of_lt hlt]
  · rw [checkIndex_of_le hge, checkIndex_of_le hge]
    exact ⟨hs.1, rfl⟩

/-- The elements an M-format command reads are in the memories and the pending registers alone (R41 to R43). -/
theorem commandEffect_sameAnswer_of_hidden (hi : memoryOperand i ≠ none) (cursor : Nat) (initDone : Bool)
    (rega : Vector RegWord Config.regCount) :
    SameAnswer (commandEffect i s)
      (commandEffect i { s with cursor := cursor, initDone := initDone, rega := rega }) := by
  cases i with
  | rdChar | wrChar | rdReg | wrReg | rdFont | wrFont | rdFb | wrFb =>
    exact checkIndex_sameAnswer ⟨rfl, rfl⟩ ⟨rfl, rfl⟩
  | putcBs | putcDel | putcCr | putcLf | putcPrint | init => exact absurd rfl hi

/-- Settles O29: both states perform the command, and what it answers reads none of the hidden elements. -/
theorem hiddenStateIsNotReadable : Obligations.HiddenStateIsNotReadable := by
  intro i s u hi hopen hu
  have hopenU : u.Open := by rw [hu]; exact hopen
  have hsame : SameAnswer (commandEffect i s) (commandEffect i u) := by
    rw [hu]; exact commandEffect_sameAnswer_of_hidden hi _ _ _
  exact ⟨_, _, (exec_eq_hostCommand i s).trans (hostCommand_open hopen),
    (exec_eq_hostCommand i u).trans (hostCommand_open hopenU), hsame⟩

/-! ### Who changes what -/

/-- Settles O50: no command and no ENGINE step writes REGA. -/
theorem activeRegistersChangeOnlyAtFrame : Obligations.ActiveRegistersChangeOnlyAtFrame := by
  intro s t h hframe hreset r
  cases step_event h with
  | reset hr => exact absurd (hr.symm.trans hreset) (by decide)
  | frame hf => exact absurd (hf.symm.trans hframe) (by decide)
  | engine =>
    obtain ⟨_, hrega, _⟩ := engineStep_frame s.envTaken ‹_›
    exact congrArg (Vector.get · r) hrega
  | command _ _ hu => exact congrArg (Vector.get · r) hu.rega_eq
  | illegal => rfl

/-- Settles O51: of the ENGINE steps step 1 alone writes the cursor, of the commands a PUTC alone. -/
theorem cursorHasTwoWriters : Obligations.CursorHasTwoWriters := by
  intro s t h hne
  cases step_event h with
  | reset hr => exact .inr (.inr hr)
  | @engine k hk =>
    refine .inr (.inl ?_)
    obtain rfl : k = .s1 := by
      by_contra hk1
      exact hne ((engineStep_cursor ..).trans (if_neg hk1))
    exact hk
  | @command c i u hc hd hu =>
    refine .inl ⟨c, i, hc, hd, ?_⟩
    by_contra hi
    exact hne (hu.cursor_eq (by simpa using hi))
  | frame | illegal => exact absurd rfl hne

/-- Settles O52: no ENGINE step writes VSYN, and a command that does is a WR.REG of register 7. -/
theorem vsynIsTheHostsAlone : Obligations.VsynIsTheHostsAlone := by
  intro s t h hne
  cases step_event h with
  | reset hr => exact .inr hr
  | engine => exact absurd (engineStep_regP_vsyn ..) hne
  | @command c i u hc hd hu =>
    obtain ⟨v, rfl⟩ := hu.regP_vsyn hne
    exact .inl ⟨c, v, hc, hd⟩
  | frame | illegal => exact absurd rfl hne

/-- A step that leaves `initDone` as it was makes it neither true nor false. -/
theorem initDone_unchanged {P Q : Prop} (h : u.initDone = s.initDone) :
    (s.initDone = false → u.initDone = true → P) ∧ (s.initDone = true → u.initDone = false → Q) := by
  rw [h]
  cases s.initDone <;> simp

/-- Settles O54: among the events only ENGINE's step 10 and a reset write `initDone`. -/
theorem initDoneComesFromStep10 : Obligations.InitDoneComesFromStep10 := by
  intro s t h
  cases step_event h with
  | reset hr => exact ⟨nofun, fun _ _ => hr⟩
  | @engine k hk =>
    have hstep := engineStep_initDone k s.envTaken
    split at hstep
    · subst k
      exact ⟨fun _ _ => hk, nofun⟩
    · exact initDone_unchanged hstep
  | command _ _ hu => exact initDone_unchanged hu.initDone_eq
  | frame | illegal => exact initDone_unchanged rfl

/-! ### Faults and the reset -/

theorem agentTurn_stopped {f : FaultInfo} (h : s.fault = some f) : agentTurn s = .fault (.stopped f) := by
  simp [agentTurn, h]

theorem frameTurn_stopped {f : FaultInfo} (h : s.fault = some f) : frameTurn s = .fault (.stopped f) := by
  simp [frameTurn, h]

/-- A faulted machine takes no step but a reset, whoever has the turn (R127). -/
theorem step_stopped {f : FaultInfo} (h : s.fault = some f) (hr : s.resetNext = false) :
    step s = .fault (.stopped f) := by
  unfold State.resetNext at hr
  unfold step takeTurn
  split
  · exact agentTurn_stopped h
  · exact agentTurn_stopped h
  · exact frameTurn_stopped h
  · simp_all

/-- Settles O53: every agent is stopped by the fault, and the reset needs none. -/
theorem faultIsSticky : Obligations.FaultIsSticky := by
  intro s f h
  refine ⟨step_stopped h, fun hr => ?_⟩
  obtain ⟨rest, henv⟩ := State.resetNext_iff.1 hr
  exact ⟨_, step_reset henv, rfl⟩

/-- Settles O55: the step is `platformReset`, whose memories are empty stores, so every element reads as its draw. -/
theorem resetClearsAndDraws : Obligations.ResetClearsAndDraws :=
  fun s _ henv => ⟨platformReset s.envTaken, step_reset henv, rfl, rfl, rfl, rfl, State.regP_platformReset _,
    State.regA_platformReset _, State.cell_platformReset _, State.fontByte_platformReset _, State.fbWord_platformReset _⟩

/-- Settles O56: `State.reset` draws as reset number 0. -/
theorem resetStateHoldsTheSpecsValues : Obligations.ResetStateHoldsTheSpecsValues :=
  ⟨rfl, rfl, rfl, rfl, regFileOf_get _, regFileOf_get _, fun _ => Store.read_nil, fun _ => Store.read_nil,
    fun _ => Store.read_nil⟩

end Sys2Proof.Machine
end

section
/-!
The HOST's turn: the command it issues is the one performed, and an access that is no whole element is refused
(spec/20_memory.md R49 and R54). Built on the turn lemmas of Laws/Step.lean.
-/

namespace Sys2Proof.Machine

variable {s : State} {c : Command} {i : Instr}

theorem performCommand_of_decode (h : decode c = .ok i) : performCommand c s = exec i s := by
  simp [performCommand, h]

/-- With no fault recorded and ENGINE idle the turn is the HOST's, and R49 gives it no step. -/
theorem agentTurn_partialAccess {sp : Space} {rest : List HostItem} (h : s.Open)
    (hq : s.pending = .partialAccess sp :: rest) : agentTurn s = .refused (.partialAccess sp) := by
  obtain ⟨hf, he⟩ := h
  simp [agentTurn, hf, he, hq]

/-- Settles O7: the step is the HOST's turn, which performs the command it decodes. -/
theorem stepPerformsTheDecodedCommand : Obligations.StepPerformsTheDecodedCommand :=
  fun _ _ _ hnext hd => (step_host hnext).trans (performCommand_of_decode hd)

/-- Settles O11: with nothing planned by ENV the step is the HOST's turn, which is refused. -/
theorem partialAccessIsRefused : Obligations.PartialAccessIsRefused := by
  intro s sp rest hopen henv hq
  rw [step_of_passing (.inl henv)]
  exact agentTurn_partialAccess (s := s.envTaken) hopen hq

end Sys2Proof.Machine
end

section
/-!
The decoder and the encoder are inverse to each other (spec/30_encoding.md R66 to R68), and the illegal words, the opcode table and the
put_char classes read off the word's three fields (R62, R67, R69, R74). Built on the words of Laws/Decode.lean.
-/

namespace Sys2Proof

variable {cw u : CmdWord} {i rd wr : Instr} {why : Illegal} {row : TableRow}

/-! ### Encoding, then decoding -/

/-- The decoding of an instruction's word is the instruction with both operands 0. -/
theorem decodeWord_encode_cw (hi : i.wellFormed = true) : decodeWord (encode i).cw = .ok (withOperands 0 0 i) := by
  cases i with
  | rdChar => exact decodeWord_rdChar
  | wrChar => exact decodeWord_wrChar
  | rdReg => exact decodeWord_rdReg
  | wrReg => exact decodeWord_wrReg
  | rdFont => exact decodeWord_rdFont
  | wrFont => exact decodeWord_wrFont
  | rdFb => exact decodeWord_rdFb
  | wrFb => exact decodeWord_wrFb
  | putcBs => exact decodeWord_putcBs
  | putcDel => exact decodeWord_putcDel
  | putcCr => exact decodeWord_putcCr
  | putcLf => exact decodeWord_putcLf
  | putcPrint b => exact (decodeWord_putcWord b).trans (congrArg Decoded.ok (decodePutc_of_printable hi))
  | init => exact decodeWord_init

theorem withOperands_withOperands (idx data idx' data' : Nat) (i : Instr) :
    withOperands idx data (withOperands idx' data' i) = withOperands idx data i := by cases i <;> rfl

/-- Settles O1: the word chooses the instruction, and its operands stand beside the word. -/
theorem decodeOfEncodeIsTheInstruction : Obligations.DecodeOfEncodeIsTheInstruction := by
  intro i hi
  rw [decode_eq, decodeWord_encode_cw hi]
  exact congrArg Decoded.ok ((withOperands_withOperands ..).trans (withOperands_encode i))

/-! ### A word and its fields (R62) -/

theorem cw_toNat_eq_fields (cw : CmdWord) :
    cw.toNat = (spField cw).toNat * 512 + (wField cw).toNat * 256 + (bField cw).toNat := by
  have hlt := cw.isLt
  have hsp : (spField cw).toNat = cw.toNat / 512 % 8 := by
    simp only [spField, BitVec.extractLsb'_toNat, Nat.shiftRight_eq_div_pow, Nat.reducePow]
  have hw : (wField cw).toNat = cw.toNat / 256 % 2 := by rw [wField, BitVec.getLsbD, Nat.toNat_testBit]
  have hb : (bField cw).toNat = cw.toNat % 256 := by
    simp only [bField, BitVec.extractLsb'_toNat, Nat.shiftRight_zero, Nat.reducePow]
  omega

/-- A word is known by its three fields. -/
theorem eq_of_fields {sp : BitVec 3} {w : Bool} {b : Byte} (hsp : spField cw = sp) (hw : wField cw = w)
    (hb : bField cw = b) (hu : u.toNat = sp.toNat * 512 + w.toNat * 256 + b.toNat) : u = cw := by
  apply BitVec.eq_of_toNat_eq
  rw [hu, cw_toNat_eq_fields cw, hsp, hw, hb]

theorem putcWord_toNat (b : Byte) : (putcWord b).toNat = 0x900 + b.toNat := by
  rw [putcWord, BitVec.toNat_append, ← Nat.shiftLeft_add_eq_or_of_lt b.isLt]
  rfl

/-- The code of a space (R62). -/
def spaceCode : Space → BitVec 3
  | .char => 0#3
  | .reg => 1#3
  | .font => 2#3
  | .fb => 3#3
  | .con => 4#3
  | .ctl => 5#3

theorem spaceOfCode_eq_some {code : BitVec 3} {sp : Space} (h : spaceOfCode code = some sp) : code = spaceCode sp := by
  revert code
  cases sp <;> decide

theorem spaceOfCode_eq_none {code : BitVec 3} (h : spaceOfCode code = none) : 6 ≤ code.toNat := by
  revert code
  decide

/-! ### A format's check: decoded where it holds, else illegal -/

section Check

variable {p : Prop} [Decidable p]

theorem ite_eq_ok_iff {j : Instr} : (if p then Decoded.ok j else .illegal why) = .ok i ↔ p ∧ j = i := by
  split <;> simp [*]

theorem exists_ite_eq_illegal_iff {j : Instr} :
    (∃ why', (if p then Decoded.ok j else .illegal why) = .illegal why') ↔ ¬ p := by
  split <;> simp [*]

end Check

/-! ### Decoding, then encoding -/

theorem decodeMemory_eq_ok (h : decodeMemory cw rd wr = .ok i) :
    bField cw = 0x00#8 ∧ (wField cw = false ∧ i = rd ∨ wField cw = true ∧ i = wr) := by
  obtain ⟨hb, rfl⟩ := ite_eq_ok_iff.1 h
  cases wField cw <;> simp [hb]

theorem decodePutc_wellFormed : ∀ b : Byte, (decodePutc b).wellFormed = true := by decide

theorem encode_decodePutc_cw : ∀ b : Byte, (encode (decodePutc b)).cw = putcWord b := by decide

/-- A word that decodes has the fields of its instruction's word, so it is that word. -/
theorem encode_cw_of_decodeWord (h : decodeWord cw = .ok i) : i.wellFormed = true ∧ (encode i).cw = cw := by
  unfold decodeWord decode at h
  cases hsp : spaceOfCode (spField cw) with
  | none => simp [hsp] at h
  | some sp =>
    rw [hsp] at h
    replace hsp := spaceOfCode_eq_some hsp
    cases sp with
    | char | reg | font | fb =>
      obtain ⟨hb, ⟨hw, rfl⟩ | ⟨hw, rfl⟩⟩ := decodeMemory_eq_ok h
      all_goals exact ⟨rfl, eq_of_fields hsp hw hb rfl⟩
    | con =>
      obtain ⟨hw, rfl⟩ := ite_eq_ok_iff.1 h
      exact ⟨decodePutc_wellFormed _, (encode_decodePutc_cw _).trans (eq_of_fields hsp hw rfl (putcWord_toNat _))⟩
    | ctl =>
      obtain ⟨⟨hw, hb⟩, rfl⟩ := ite_eq_ok_iff.1 h
      exact ⟨rfl, eq_of_fields hsp hw hb rfl⟩

/-- Settles O2: operands change neither the form of an instruction nor its word. -/
theorem decodedWordEncodesBack : Obligations.DecodedWordEncodesBack := by
  intro c i h
  obtain ⟨j, hj, rfl⟩ := (decode_ok_iff_word c i).1 h
  rw [withOperands_wellFormed, withOperands_encode_cw]
  exact encode_cw_of_decodeWord hj

/-! ### The illegal words (R69) -/

/-- The four ranges of R69. -/
abbrev IllegalRange (n : Nat) : Prop :=
  0xC00 ≤ n ∨ (n < 0x800 ∧ n % 256 ≠ 0) ∨ (0x800 ≤ n ∧ n ≤ 0x8FF) ∨ (0xA00 ≤ n ∧ n ≤ 0xAFF) ∨ (0xB01 ≤ n ∧ n ≤ 0xBFF)

/-- Of the words of one space the illegal ones are a range of the fields W and B. -/
theorem decode_illegal_iff (c : Command) : (∃ why, decode c = .illegal why) ↔ IllegalRange c.cw.toNat := by
  have hn := cw_toNat_eq_fields c.cw
  have hb := (bField c.cw).isLt
  have hw := (wField c.cw).toNat_lt
  have hzero : bField c.cw = 0x00#8 ↔ (bField c.cw).toNat = 0 := BitVec.toNat_inj.symm
  have hset : wField c.cw = true ↔ (wField c.cw).toNat = 1 := by cases wField c.cw <;> decide
  unfold decode
  cases hsp : spaceOfCode (spField c.cw) with
  | none =>
    have hcode := spaceOfCode_eq_none hsp
    exact ⟨fun _ => .inl (by omega), fun _ => ⟨_, rfl⟩⟩
  | some sp =>
    rw [spaceOfCode_eq_some hsp] at hn
    cases sp with
    | char | reg | font | fb | con | ctl =>
      refine exists_ite_eq_illegal_iff.trans ?_
      simp only [spaceCode, BitVec.toNat_ofNat, hset, hzero] at hn ⊢
      omega

/-! ### The opcode table (R74) -/

open Laws.OneRow in
theorem rowsOf_encode (i : Instr) (hi : i.wellFormed = true) : rowsOf (encode i).cw = [i.mnemonic] := by
  cases i with
  | rdChar => exact rdChar _ hi
  | wrChar => exact wrChar _ _ hi
  | rdReg => exact rdReg _ hi
  | wrReg => exact wrReg _ _ hi
  | rdFont => exact rdFont _ hi
  | wrFont => exact wrFont _ _ hi
  | rdFb => exact rdFb _ hi
  | wrFb => exact wrFb _ _ hi
  | putcBs => exact putcBs hi
  | putcDel => exact putcDel hi
  | putcCr => exact putcCr hi
  | putcLf => exact putcLf hi
  | putcPrint => exact putcPrint _ hi
  | init => exact init hi

/-- Every row's words are one legal word, or lie in 0x900..0x9FF. -/
theorem opcodeTable_patterns : ∀ row ∈ opcodeTable,
    row.mask = 0xFFF#12 ∧ ¬ IllegalRange row.pattern.toNat ∨ row.mask = 0xF00#12 ∧ row.pattern = 0x900#12 := by decide

theorem not_illegalRange_of_matchesWord (hrow : row ∈ opcodeTable) (h : row.matchesWord cw = true) :
    ¬ IllegalRange cw.toNat := by
  obtain ⟨hmatch, -⟩ := Bool.and_eq_true_iff.1 h
  replace hmatch : cw &&& row.mask = row.pattern := eq_of_beq hmatch
  rcases opcodeTable_patterns row hrow with ⟨hmask, hlegal⟩ | ⟨hmask, hpattern⟩
  · have hcw : cw = row.pattern := by rw [← hmatch, hmask]; exact BitVec.and_allOnes.symm
    rwa [hcw]
  · rw [hmask, hpattern] at hmatch
    have hnibble : cw.toNat / 256 % 16 = 9 := calc
      cw.toNat / 256 % 16 = cw.toNat / 256 &&& 15 := (Nat.and_two_pow_sub_one_eq_mod _ 4).symm
      _ = (cw &&& 0xF00#12).toNat / 256 := (Nat.and_div_two_pow (b := 0xF00) (n := 8)).symm
      _ = 9 := by rw [hmatch]; rfl
    unfold IllegalRange
    omega

theorem rowsOf_illegal (h : IllegalRange cw.toNat) : Laws.OneRow.rowsOf cw = [] := by
  rw [Laws.OneRow.rowsOf, List.map_eq_nil_iff, List.filter_eq_nil_iff]
  exact fun row hrow hm => not_illegalRange_of_matchesWord hrow hm h

/-- Settles O4: a legal word is the word of its instruction, and no row holds a word of R69's ranges. -/
theorem decodingFollowsTheOpcodeTable : Obligations.DecodingFollowsTheOpcodeTable := by
  intro c
  cases hd : decode c with
  | ok i =>
    obtain ⟨hi, hcw⟩ := decodedWordEncodesBack c i hd
    rw [← hcw]
    exact rowsOf_encode i hi
  | illegal why => exact rowsOf_illegal ((decode_illegal_iff c).1 ⟨why, hd⟩)

/-! ### The put_char classes (R67) -/

theorem eq_putcWord_of_nibble (h : cw.toNat / 256 = 9) : cw = putcWord (BitVec.ofNat 8 cw.toNat) := by
  apply BitVec.eq_of_toNat_eq
  rw [putcWord_toNat, BitVec.toNat_ofNat]
  omega

theorem ofNat_byte_eq_iff (n k : Nat) : BitVec.ofNat 8 n = BitVec.ofNat 8 k ↔ n % 256 = k % 256 := by
  rw [← BitVec.toNat_inj, BitVec.toNat_ofNat, BitVec.toNat_ofNat]

theorem putcPrint_wellFormed_eq {n : Nat} (hn : n < 256) :
    (Instr.putcPrint (BitVec.ofNat 8 n)).wellFormed = decide (n ∉ [0x08, 0x7F, 0x0D, 0x0A]) := by
  rw [Bool.eq_iff_iff]
  simp [Instr.wellFormed, Byte.printable, ofNat_byte_eq_iff, Nat.mod_eq_of_lt hn, and_assoc]

/-- Settles O5: the byte alone chooses the class, and of the 256 bytes four are taken out. -/
theorem putcBytesFallInFiveClasses : Obligations.PutcBytesFallInFiveClasses := by
  constructor
  · intro cw idx data h
    have hword : decodeWord cw = .ok (decodePutc (BitVec.ofNat 8 cw.toNat)) := by
      conv_lhs => rw [eq_putcWord_of_nibble h]
      exact decodeWord_putcWord _
    rw [decode_of_word hword, withOperands_decodePutc]
    simp only [decodePutc, ofNat_byte_eq_iff, Nat.reduceMod]
  · rw [List.filter_congr fun n hn => putcPrint_wellFormed_eq (List.mem_range.1 hn),
      ← List.nodup_range.sdiff_eq_filter]
    simp

/-- Settles O6: each word is one of the decoder's table, or a put_char word. -/
theorem wordsOfEveryFamilyDecode : Obligations.WordsOfEveryFamilyDecode :=
  ⟨decode_of_word decodeWord_wrChar _ _, decode_of_word decodeWord_rdReg _ _, decode_of_word decodeWord_putcDel _ _,
    decode_of_word (decodeWord_putcWord 0x48#8) _ _, decode_of_word decodeWord_init _ _, rfl⟩

end Sys2Proof
end

section
/-!
Performing what a word decodes to: the raise of an illegal word (spec/30_encoding.md R69), the command placed first in the HOST's queue
(log entry 1), and the two commands of `inc.reg` and `dec.reg` (R72).
-/

namespace Sys2Proof.Machine

variable {s t : State} {c : Command} {i : Instr} {why : Illegal} {r : Reg} {n : Nat}

theorem performCommand_of_illegal (h : decode c = .illegal why) :
    performCommand c s = hostCommand s (s.raise (.illegalCommand c.cw)) := by
  simp [performCommand, h]

/-- Settles O3: the fields give the ranges, and an illegal command performed is a raise alone. -/
theorem illegalWordsAreTheFourRanges : Obligations.IllegalWordsAreTheFourRanges :=
  fun c => ⟨decode_illegal_iff c, fun _ hd _ hopen =>
    ⟨_, (performCommand_of_illegal hd).trans (hostCommand_open hopen), rfl⟩⟩

/-! ### The placed command -/

theorem decode_of_decodeTableWord {nbits w : Nat} (h : decodeTableWord nbits w = some i) :
    decode (commandOfTableWord nbits w) = .ok i := by
  unfold decodeTableWord at h
  split at h
  · cases h; assumption
  · cases h

theorem envPassing_passing (env : List EnvTurn) : envPassing env = [] ∨ (envPassing env).head? = some .pass := by
  cases env <;> simp [envPassing]

theorem envPassing_tail (env : List EnvTurn) : (envPassing env).tail = env := by
  cases env <;> rfl

theorem hostNext_withCommand (s : State) (c : Command) : (s.withCommand c).HostNext c :=
  ⟨⟨rfl, rfl⟩, rfl, envPassing_passing s.env⟩

/-- Settles O8: the placed command is the HOST's next, and passing ENV's turn gives back its schedule. -/
theorem placedWordIsPerformedNext : Obligations.PlacedWordIsPerformedNext := by
  intro s nbits w i h
  refine (stepPerformsTheDecodedCommand _ _ i (hostNext_withCommand s _) (decode_of_decodeTableWord h)).trans ?_
  exact congrArg (fun env => exec i { s.withFetchWord nbits w with env := env }) (envPassing_tail s.env)

/-! ### A read and a write of one register (R72, R125) -/

/-- The HOST's next command, written from its instruction, is performed and leaves the queue. -/
theorem step_encode (hi : i.wellFormed = true) (h : s.HostNext (encode i)) :
    step s = .next (commandEffect i s.envTaken).retire := by
  rw [step_host h, performCommand_of_decode (decodeOfEncodeIsTheInstruction i hi), exec_eq_hostCommand]
  exact hostCommand_open h.1

theorem regOfIdx_val (r : Reg) : regOfIdx r.val = r := Fin.ofNat_val_eq_self r

/-- The HOST has read register `r` in `s`, and no pending register has changed since. -/
def RegisterRead (s : State) (r : Reg) (t : State) : Prop :=
  t.Open ∧ t.pending = s.pending.tail ∧ t.returned = some (.reg (s.regP r)) ∧ ∀ q, t.regP q = s.regP q

theorem rdReg_reads (h : s.HostNext (encode (.rdReg r.val))) :
    ∃ t, step s = .next t ∧ t.env = s.env.tail ∧ RegisterRead s r t := by
  refine ⟨(s.envTaken.reply (.reg (s.regP r))).retire, ?_, rfl, h.1, rfl, rfl, fun _ => rfl⟩
  rw [step_encode rfl h, commandEffect, checkIndex_of_lt r.isLt, regOfIdx_val]
  rfl

/-- FRAME writes the active registers alone (R121), so it does not come between the read and the write. -/
theorem RegisterRead.frame {rest : List EnvTurn} (h : RegisterRead s r t) (henv : t.env = .frame :: rest) :
    ∃ u, step t = .next u ∧ u.env = rest ∧ RegisterRead s r u := by
  have ⟨⟨hfault, _⟩, _⟩ := h
  exact ⟨frameEvent t.envTaken, step_frame henv hfault, congrArg List.tail henv, h⟩

/-- What a read of register `r` and a write of the natural `n` to it leave: the value is cut to REG_W bits. -/
abbrev RegisterRewritten (s : State) (r : Reg) (n : Nat) (t : State) : Prop :=
  t.fault = none ∧ t.pending = [] ∧ t.returned = some (.reg (s.regP r)) ∧
  ∀ q, (t.regP q).toNat = if q = r then n % 2 ^ Config.regW else (s.regP q).toNat

theorem RegisterRead.write (h : RegisterRead s r t) (henv : t.env = [])
    (hq : s.pending.tail = [.command (encode (.wrReg r.val (toRegWord n)))]) :
    ∃ u, runSteps 1 t = .next u ∧ RegisterRewritten s r n u := by
  obtain ⟨hopen, hpending, hreturned, hregs⟩ := h
  rw [hq] at hpending
  have hstep : step t = .next (t.envTaken.setReg r (toRegWord n)).retire := by
    rw [step_encode rfl ⟨hopen, by rw [hpending]; rfl, .inl henv⟩, commandEffect, checkIndex_of_lt r.isLt, regOfIdx_val]
  refine ⟨_, runSteps_succ hstep, hopen.1, congrArg List.tail hpending, hreturned, fun q => ?_⟩
  rw [State.regP_retire, State.regP_setReg, apply_ite BitVec.toNat, toRegWord, BitVec.toNat_ofNat, ← hregs]
  rfl

/-- On both schedules: the read, a FRAME where one is planned, the write. -/
theorem rdRegWrReg_runs {steps : Nat} (hopen : s.Open)
    (hsched : (s.env = [] ∧ steps = 2) ∨ (s.env = [.pass, .frame] ∧ steps = 3))
    (hq : s.pending = [encode (.rdReg r.val), encode (.wrReg r.val (toRegWord n))].map HostItem.command) :
    ∃ t, runSteps steps s = .next t ∧ RegisterRewritten s r n t := by
  have hpass : s.Passing := hsched.imp (·.1) fun h => congrArg List.head? h.1
  obtain ⟨t, hread, henv, ht⟩ := rdReg_reads ⟨hopen, by rw [hq]; rfl, hpass⟩
  have hwrite := congrArg List.tail hq
  rcases hsched with ⟨hs, rfl⟩ | ⟨hs, rfl⟩
  · rw [runSteps_succ hread]
    exact ht.write (henv.trans (congrArg List.tail hs)) hwrite
  · obtain ⟨u, hframe, henv, hu⟩ := ht.frame (henv.trans (congrArg List.tail hs))
    rw [runSteps_succ hread, runSteps_succ hframe]
    exact hu.write henv hwrite

/-- Settles O21: the written value is cut to REG_W bits, which is the wrap, and a FRAME writes no pending register. -/
theorem incAndDecRegWrap : Obligations.IncAndDecRegWrap := by
  intro s r steps hopen hsched
  refine ⟨rdRegWrReg_runs hopen hsched, ?_⟩
  rw [← Nat.add_sub_assoc Nat.one_le_two_pow]
  exact rdRegWrReg_runs hopen hsched

end Sys2Proof.Machine
end

section
/-!
A PUTC as one transition (spec/40_console.md R76, R77, R87): how its performance reads on the HOST's side, the cursor and the cells its
byte's action leaves, the scroll that follows, and what of TCON it leaves alone (R88 to R90).
-/

namespace Sys2Proof.Machine

variable {s t : State} {i : Instr} {c j : Nat} {f : Nat → CharCell} {dflt : Nat → CharCell} {x : Screen}

/-! ### Performing a PUTC -/

/-- The byte a PUTC carries (R67); a command that is no PUTC has none. -/
def putcByte : Instr → Byte
  | .putcBs => 0x08#8
  | .putcDel => 0x7F#8
  | .putcCr => 0x0D#8
  | .putcLf => 0x0A#8
  | .putcPrint b => b
  | .rdChar _ | .wrChar _ _ | .rdReg _ | .wrReg _ _ | .rdFont _ | .wrFont _ _ | .rdFb _ | .wrFb _ _ | .init => 0

theorem isPutc_decodePutc : ∀ b : Byte, isPutc (decodePutc b) = true := by decide

theorem putcByte_decodePutc : ∀ b : Byte, putcByte (decodePutc b) = b := by decide

theorem exec_putc (hi : isPutc i = true) : exec i s = hostCommand s (putChar (putcByte i) (putcAction i) s) := by
  cases i with
  | putcBs | putcDel | putcCr | putcLf | putcPrint => rfl
  | _ => contradiction

theorem exec_putc_early (hi : isPutc i = true) (hopen : s.Open) (hd : s.initDone = false) :
    exec i s = .next (s.raise (.useBeforeInit (putcByte i))).retire := by
  rw [exec_putc hi, hostCommand_open hopen, putChar_early hd]

theorem exec_putc_raises (hi : isPutc i = true) (hopen : s.Open) (hd : s.initDone = false) :
    Raises (exec i s) s (.useBeforeInit (putcByte i)) :=
  ⟨_, exec_putc_early hi hopen hd, rfl⟩

theorem exec_putc_ready (hi : isPutc i = true) (hr : s.Ready) :
    exec i s = .next (s.putScreen (putcScreen i s)).retire := by
  obtain ⟨hopen, hd⟩ := hr
  rw [exec_putc hi, hostCommand_open hopen, putChar_ready hd, putcScreen]

theorem putcLeaves_putScreen (hc : x.c = c) (hf : ∀ j, Store.read (Config.cbDraw s.epoch) x.cb j = f j) :
    PutcLeaves s (s.putScreen x).retire c f := by
  subst hc
  exact ⟨rfl, hf, fun q => State.regP_putScreen s x q⟩

/-- What a PUTC leaves, read off its screen. -/
theorem putc_leaves_screen (hi : isPutc i = true) (hr : s.Ready) (hc : (putcScreen i s).c = c)
    (hf : ∀ j, Store.read (Config.cbDraw s.epoch) (putcScreen i s).cb j = f j) :
    ∃ t, exec i s = .next t ∧ PutcLeaves s t c f :=
  ⟨_, exec_putc_ready hi hr, putcLeaves_putScreen hc hf⟩

theorem PutcLeaves.cursor_eq (h : PutcLeaves s t c f) : t.cursor = c := by rw [h.1]

theorem PutcLeaves.cell_eq (h : PutcLeaves s t c f) (j : Nat) : t.cell j = f j := h.2.1 j

theorem PutcLeaves.ready (h : PutcLeaves s t c f) (hr : s.Ready) : t.Ready := by rw [h.1]; exact hr

/-! ### The scroll after the action (R85) -/

theorem putcScreen_c_of_cap (h : (putcAction i (Config.cbDraw s.epoch) s.screen).c = Config.cap) :
    (putcScreen i s).c = Config.cap - 128 :=
  scrollCheck_c (g := consoleGrid) h.ge

theorem read_putcScreen_of_cap (h : (putcAction i (Config.cbDraw s.epoch) s.screen).c = Config.cap)
    (hf : ∀ j, Store.read (Config.cbDraw s.epoch) (putcAction i (Config.cbDraw s.epoch) s.screen).cb j = f j) (j : Nat) :
    Store.read (Config.cbDraw s.epoch) (putcScreen i s).cb j = scrolled f j := by
  obtain rfl : _ = f := funext hf
  exact read_scrollCheck (g := consoleGrid) h.ge

/-- A PUTC from its action: below CAP what the action left stands, at CAP it is scrolled by one row. -/
theorem putc_leaves (hi : isPutc i = true) (hr : s.Ready) (hc : (putcAction i (Config.cbDraw s.epoch) s.screen).c = c)
    (hf : ∀ j, Store.read (Config.cbDraw s.epoch) (putcAction i (Config.cbDraw s.epoch) s.screen).cb j = f j) :
    ∃ t, exec i s = .next t ∧ (c < Config.cap → PutcLeaves s t c f) ∧
      (c = Config.cap → PutcLeaves s t (Config.cap - 128) (scrolled f)) := by
  subst hc
  refine ⟨_, exec_putc_ready hi hr, fun hlt => ?_, fun hcap => ?_⟩
  · rw [putcScreen, scrollCheck_of_lt (g := consoleGrid) hlt]
    exact putcLeaves_putScreen rfl hf
  · exact putcLeaves_putScreen (putcScreen_c_of_cap hcap) (read_putcScreen_of_cap hcap hf)

/-! ### The action stays in the grid -/

/-- From a cursor below CAP no action passes CAP (R85). -/
theorem putcAction_c_le_cap (i : Instr) (h : x.c < Config.cap) : (putcAction i dflt x).c ≤ Config.cap := by
  cases i with
  | putcBs | putcDel =>
    simp only [putcAction, eraseBack]
    split
    · exact h.le
    · exact (Nat.sub_le ..).trans h.le
  | putcCr => exact (Nat.sub_le ..).trans h.le
  | putcLf => exact nextRow_le_of_lt Config.cap_mod h
  | putcPrint => exact h
  | _ => exact h.le

/-- From a cursor in the grid an action writes no cell outside it (R90). -/
theorem read_putcAction_outside (i : Instr) (hx : Config.gridStart ≤ x.c ∧ x.c < Config.cap)
    (hj : j < Config.gridStart ∨ Config.cap ≤ j) :
    Store.read dflt (putcAction i dflt x).cb j = Store.read dflt x.cb j := by
  cases i with
  | putcBs | putcDel =>
    have hrow := Config.gridStart_mod
    show Store.read dflt (eraseBack dflt x).cb j = _
    by_cases h0 : x.c % 128 = 0
    · rw [eraseBack_column_zero h0]
    · rw [read_eraseBack h0, if_neg (by omega)]
  | putcLf =>
    have hnext := nextRow_le_of_lt Config.cap_mod hx.2
    exact read_lineFeed.trans (if_neg (by omega))
  | putcPrint => exact read_printByte.trans (if_neg (by omega))
  | _ => rfl

theorem scrolled_outside (hj : j < Config.gridStart ∨ Config.cap ≤ j) : scrolled f j = f j := if_neg (by omega)

theorem read_putcScreen_outside (i : Instr) (hg : s.InGrid) (hj : j < Config.gridStart ∨ Config.cap ≤ j) :
    Store.read (Config.cbDraw s.epoch) (putcScreen i s).cb j = s.cell j := by
  have haction := read_putcAction_outside (dflt := Config.cbDraw s.epoch) (x := s.screen) i hg hj
  rcases (putcAction_c_le_cap (dflt := Config.cbDraw s.epoch) (x := s.screen) i hg.2).lt_or_eq with hlt | hcap
  · rw [putcScreen, scrollCheck_of_lt (g := consoleGrid) hlt]
    exact haction
  · rw [read_putcScreen_of_cap hcap fun _ => rfl, scrolled_outside hj]
    exact haction

/-- Settles O31: the scroll check takes the one cursor outside the grid, CAP, back into it. -/
theorem putcKeepsTheCursorInTheGrid : Obligations.PutcKeepsTheCursorInTheGrid := by
  intro i s t hi hr hg h
  cases (exec_putc_ready hi hr).symm.trans h
  exact putcScreen_inGrid i hg

/-- Settles O32: a PUTC is a raise before INIT is complete, and puts its screen after it. -/
theorem putcLeavesTheRestAlone : Obligations.PutcLeavesTheRestAlone := by
  intro i s hi hopen hg
  rcases s.initDone.eq_false_or_eq_true with hd | hd
  · refine ⟨_, exec_putc_ready hi ⟨hopen, hd⟩, rfl, fun j hj => read_putcScreen_outside i hg hj, fun q hx hy => ?_,
      .inl hopen.1⟩
    rw [State.regP_retire, State.regP_putScreen, if_neg hx, if_neg hy]
  · exact ⟨_, exec_putc_early hi hopen hd, rfl, fun _ _ => rfl, fun _ _ _ => rfl, .inr ⟨hd, _, rfl⟩⟩

/-! ### The cursor registers (R86) -/

/-- Settles O30: the sync ends every PUTC, and a column and a row of the grid fit a register. -/
theorem cursorRegistersFollowTheCursor : Obligations.CursorRegistersFollowTheCursor := by
  intro b s hr
  obtain ⟨t, ht, hleaves⟩ := putc_leaves_screen (isPutc_decodePutc b) hr rfl fun _ => rfl
  have hcursor := hleaves.cursor_eq
  obtain ⟨_, _, hregs⟩ := hleaves
  rw [← hcursor] at hregs
  have hx : t.regP regXcur = toRegWord (t.cursor % 128) := hregs regXcur
  have hy : t.regP regYcur = toRegWord (t.cursor / 128) := hregs regYcur
  refine ⟨t, ht, hx, hy, rfl, rfl, fun hg => ?_⟩
  obtain ⟨_, hlt⟩ := putcKeepsTheCursorInTheGrid _ s t (isPutc_decodePutc b) hr hg ht
  rw [hx, hy]
  exact ⟨toRegWord_toNat (lt_regW_of_lt (by omega)), toRegWord_toNat (row_lt_regW hlt.le)⟩

end Sys2Proof.Machine
end

section
/-!
The console's bytes one by one (spec/40_console.md R78 to R84): the cursor and the cells each class of bytes leaves.
-/

namespace Sys2Proof.Machine

variable {c j : Nat} {dflt : Nat → CharCell} {x : Screen}

/-! ### Columns and rows in the spec's bit operations -/

theorem and_127_eq (c : Nat) : c &&& 127 = c % 128 := Nat.and_two_pow_sub_one_eq_mod c 7

theorem or_127_eq (c : Nat) : c ||| 127 = c / 128 * 128 + 127 := by
  have := nextRow_eq_or c
  simp only [nextRow, rowStart_eq, Config.rowCells] at this
  omega

theorem or_127_succ_le_cap (h : c < Config.cap) : (c ||| 127) + 1 ≤ Config.cap :=
  nextRow_eq_or c ▸ nextRow_le_of_lt Config.cap_mod h

/-- The cells PUTC.LF blanks, as R81 writes them. -/
theorem read_lineFeed_or : Store.read dflt (lineFeed dflt x).cb j =
    if x.c ≤ j ∧ j ≤ x.c ||| 127 then Config.blank else Store.read dflt x.cb j := by
  rw [read_lineFeed, nextRow_eq_or]
  exact if_congr (and_congr_right fun _ => Nat.lt_succ_iff) rfl rfl

/-! ### The bytes -/

/-- Settles O22: off column 0 the action is the erasure of the cell before the cursor, at column 0 it is nothing, and neither reaches
CAP. -/
theorem backspaceAndDeleteBlankOneCell : Obligations.BackspaceAndDeleteBlankOneCell := by
  refine ⟨fun idx data => ⟨decode_of_word decodeWord_putcBs idx data, decode_of_word decodeWord_putcDel idx data⟩,
    fun s hopen hd => ⟨exec_putc_raises rfl hopen hd, exec_putc_raises rfl hopen hd⟩, fun s hr hg i hi => ?_⟩
  have hputc : isPutc i = true ∧ putcAction i = eraseBack := by
    rcases List.mem_pair.1 hi with rfl | rfl <;> exact ⟨rfl, rfl⟩
  obtain ⟨hputc, haction⟩ := hputc
  rw [and_127_eq]
  by_cases h0 : s.cursor % 128 = 0
  · have hkeep : putcAction i (Config.cbDraw s.epoch) s.screen = s.screen := by
      rw [haction]; exact eraseBack_column_zero h0
    obtain ⟨t, ht, hlt, _⟩ := putc_leaves hputc hr (c := s.cursor) (f := s.cell) (by rw [hkeep]; rfl)
      fun j => by rw [hkeep]; rfl
    exact ⟨t, ht, putcKeepsTheCursorInTheGrid i s t hputc hr hg ht, fun _ => hlt hg.2, fun hne => absurd h0 hne⟩
  · obtain ⟨t, ht, hlt, _⟩ := putc_leaves hputc hr (haction ▸ eraseBack_c (x := s.screen) h0)
      fun j => haction ▸ read_eraseBack (x := s.screen) h0
    exact ⟨t, ht, putcKeepsTheCursorInTheGrid i s t hputc hr hg ht, fun h => absurd h h0,
      fun _ => hlt ((Nat.sub_le ..).trans_lt hg.2)⟩

/-- Settles O23: the action goes to the row's start, which is below CAP, and writes no cell. -/
theorem carriageReturnGoesToRowStart : Obligations.CarriageReturnGoesToRowStart := by
  refine ⟨decode_of_word decodeWord_putcCr, fun s => exec_putc_raises rfl, fun s hr hg => ?_⟩
  obtain ⟨t, ht, hlt, _⟩ := putc_leaves (i := .putcCr) rfl hr rfl fun _ => rfl
  exact ⟨t, ht, putcKeepsTheCursorInTheGrid _ s t rfl hr hg ht, hlt ((Nat.sub_le ..).trans_lt hg.2)⟩

/-- Settles O24: the action goes to the next row's start, which is CAP on the last row alone, and blanks the cells it passes. -/
theorem linefeedBlanksTheRestOfTheRow : Obligations.LinefeedBlanksTheRestOfTheRow := by
  refine ⟨decode_of_word decodeWord_putcLf, fun s => exec_putc_raises rfl, fun s hr hg => ?_⟩
  obtain ⟨t, ht, hleaves⟩ := putc_leaves (i := .putcLf) rfl hr (nextRow_eq_or s.cursor) fun _ => read_lineFeed_or
  exact ⟨t, ht, or_127_succ_le_cap hg.2, hleaves⟩

/-- The row of `c`, from its first cell to its last. -/
theorem row_cells_iff (c j : Nat) : c - c % 128 ≤ j ∧ j ≤ c ||| 127 ↔ j / 128 = c / 128 := by
  rw [or_127_eq]; omega

theorem rowStart_or_127 (c : Nat) : c - c % 128 ||| 127 = c ||| 127 := by
  rw [or_127_eq, or_127_eq]; omega

/-- Settles O25: the carriage return leaves the cells and goes to column 0 of the row, from where the linefeed blanks all of it. -/
theorem crThenLfBlanksTheWholeRow : Obligations.CrThenLfBlanksTheWholeRow := by
  intro s hr hg
  obtain ⟨_, _, hcr⟩ := carriageReturnGoesToRowStart
  obtain ⟨t, ht, hgt, hleaves⟩ := hcr s hr hg
  obtain ⟨_, _, hlf⟩ := linefeedBlanksTheRestOfTheRow
  obtain ⟨u, hu, _, hbelow, hlast⟩ := hlf t (hleaves.ready hr) hgt
  simp only [hleaves.cursor_eq, hleaves.cell_eq, rowStart_or_127, row_cells_iff] at hbelow hlast
  exact ⟨t, u, ht, hu, fun h => ⟨(hbelow h).cursor_eq, (hbelow h).cell_eq⟩, fun h => ⟨(hlast h).cursor_eq, (hlast h).cell_eq⟩⟩

/-- 0x0F00 and the byte share no bit, so R83's `or` is a sum. -/
theorem printedCell_eq_ofNat : ∀ b : Byte, printedCell b = BitVec.ofNat 16 (0x0F00 + b.toNat) := by decide

/-- Settles O26: the action writes the cell at the cursor and goes one on, to CAP from the grid's last cell alone. -/
theorem printWritesTheGlyphCell : Obligations.PrintWritesTheGlyphCell := by
  intro b hb
  refine ⟨fun idx data => ?_, putcWord_toNat b, fun s => exec_putc_raises rfl, fun s hr _ => ?_⟩
  · rw [decode_of_word (decodeWord_putcWord b), withOperands_decodePutc, decodePutc_of_printable hb]
  · exact putc_leaves (i := .putcPrint b) rfl hr rfl fun j =>
      read_printByte.trans (if_congr Iff.rfl (printedCell_eq_ofNat b) rfl)

end Sys2Proof.Machine
end

section
/-!
The machine's PUTC and the transition of spec/40_console.md R87, its loops run one index at a time: they leave the same cursor and the
same cells, from every cursor and screen. The scroll of R85 is then read off the listed action.
-/

namespace Sys2Proof.Machine

variable {g : Grid} {j a n : Nat} {b : Byte} {dflt : Nat → CharCell} {x y : Screen} {m : Store 16}

/-! ### The loops of R81 and R85 -/

/-- An upward loop of writes, where the value an index takes does not depend on the lower indexes: every index takes its value of the
store the loop began with. -/
theorem read_forUp {v : Nat → Store 16 → CharCell}
    (hv : ∀ i k cell m, k < i → v i (Store.write dflt k cell m) = v i m) :
    Store.read dflt (forUp a n (fun i m => Store.write dflt i (v i m) m) m) j =
      if a ≤ j ∧ j < a + n then v j m else Store.read dflt m j := by
  induction n generalizing a m with
  | zero => exact (if_neg (by omega)).symm
  | succ n ih =>
    have hstep : forUp a (n + 1) (fun i m => Store.write dflt i (v i m) m) m =
        forUp (a + 1) n (fun i m => Store.write dflt i (v i m) m) (Store.write dflt a (v a m) m) := rfl
    rw [hstep, ih, Store.read_write]
    rcases Nat.lt_trichotomy j a with hlt | rfl | hgt
    · rw [if_neg (by omega), if_neg (by omega), if_neg (by omega)]
    · rw [if_neg (by omega), if_pos rfl, if_pos (by omega)]
    · rw [hv _ _ _ _ hgt, if_neg hgt.ne']
      exact if_congr (by omega) rfl rfl

theorem read_forUp_blank : Store.read dflt (forUp a n (fun i => Store.write dflt i Config.blank) m) j =
    if a ≤ j ∧ j < a + n then Config.blank else Store.read dflt m j :=
  read_forUp (v := fun _ _ => Config.blank) fun _ _ _ _ _ => rfl

/-- A copy from a higher cell reads what the loop has not yet written. -/
theorem read_forUp_copy :
    Store.read dflt (forUp a n (fun i m => Store.write dflt i (Store.read dflt m (i + 128)) m) m) j =
      if a ≤ j ∧ j < a + n then Store.read dflt m (j + 128) else Store.read dflt m j :=
  read_forUp (v := fun i m => Store.read dflt m (i + 128)) fun _ _ _ _ _ => Store.read_write.trans (if_neg (by omega))

/-! ### The listed transition and the machine's -/

/-- Two screens with the same cursor and the same cells, however their buffers are stored. -/
def SameScreen (dflt : Nat → CharCell) (x y : Screen) : Prop :=
  x.c = y.c ∧ ∀ j, Store.read dflt x.cb j = Store.read dflt y.cb j

theorem xor_and_127_eq (c : Nat) : c ^^^ (c &&& 127) = rowStart c := by
  have hdiv : (c ^^^ (c &&& 127)) / 2 ^ 7 = c / 128 := by
    rw [Nat.xor_div_two_pow, and_127_eq, Nat.div_eq_of_lt (a := c % 128) (by omega), Nat.xor_zero]
  have hmod : (c ^^^ (c &&& 127)) % 2 ^ 7 = 0 := by
    rw [Nat.xor_mod_two_pow, and_127_eq, Nat.mod_mod, Nat.xor_self]
  rw [rowStart_eq]; omega

theorem listedAction_erase (hb : b = 0x08#8 ∨ b = 0x7F#8) : listedAction dflt b x = eraseBack dflt x := by
  rw [listedAction, if_pos hb, and_127_eq]
  exact ite_not ..

theorem listedAction_cr : listedAction dflt 0x0D#8 x = carriageReturn x :=
  congrArg (Screen.mk · x.cb) (xor_and_127_eq x.c)

theorem listedAction_lf : SameScreen dflt (listedAction dflt 0x0A#8 x) (lineFeed dflt x) := by
  refine ⟨(nextRow_eq_or x.c).symm, fun j => ?_⟩
  rw [lineFeed, Store.read_fill, nextRow_eq_or]
  exact read_forUp_blank

theorem listedAction_print (hb : Byte.printable b = true) : listedAction dflt b x = printByte dflt b x := by
  simp only [Byte.printable, Bool.and_eq_true, bne_iff_ne, ne_eq] at hb
  simp [listedAction, hb, printByte, printedCell, Config.printAttr]

theorem SameScreen.of_eq (h : x = y) : SameScreen dflt x y := h ▸ ⟨rfl, fun _ => rfl⟩

/-- Every byte's listed action is the machine's (R78 to R84). -/
theorem listedAction_same (b : Byte) (dflt : Nat → CharCell) (x : Screen) :
    SameScreen dflt (listedAction dflt b x) (putcAction (decodePutc b) dflt x) := by
  by_cases hb : Byte.printable b = true
  · rw [decodePutc_of_printable hb]
    exact .of_eq (listedAction_print hb)
  · have hcontrol : b = 0x08#8 ∨ b = 0x7F#8 ∨ b = 0x0D#8 ∨ b = 0x0A#8 := by
      simpa [Byte.printable, or_assoc, imp_iff_not_or] using hb
    rcases hcontrol with rfl | rfl | rfl | rfl
    · exact .of_eq (listedAction_erase (.inl rfl))
    · exact .of_eq (listedAction_erase (.inr rfl))
    · exact .of_eq listedAction_cr
    · exact listedAction_lf

/-- On a grid of at least one row the two loops of R85 are the machine's one shift. -/
theorem listedScroll_same (hg : g.start + 128 ≤ g.cap) (h : SameScreen dflt x y) :
    SameScreen dflt (listedScroll g dflt x) (scrollCheck g dflt y) := by
  obtain ⟨hc, hread⟩ := h
  by_cases hcap : g.cap ≤ x.c
  · rw [listedScroll, if_pos hcap]
    refine ⟨(scrollCheck_c (hc ▸ hcap)).symm, fun j => ?_⟩
    rw [read_scrollCheck (hc ▸ hcap), read_forUp_blank, read_forUp_copy, hread, hread]
    by_cases hin : g.start ≤ j ∧ j < g.cap
    · rw [if_pos hin]
      by_cases hrow : j + 128 < g.cap
      · rw [if_pos hrow, if_neg (by omega), if_pos (by omega)]
      · rw [if_neg hrow, if_pos (by omega)]
    · rw [if_neg hin, if_neg (by omega), if_neg (by omega)]
  · rw [listedScroll, if_neg hcap, scrollCheck_of_lt (hc ▸ Nat.not_le.1 hcap)]
    exact ⟨hc, hread⟩

theorem listedPutc_same (b : Byte) (s : State) :
    SameScreen (Config.cbDraw s.epoch) (listedPutc consoleGrid (Config.cbDraw s.epoch) b s.screen)
      (putcScreen (decodePutc b) s) :=
  listedScroll_same Config.gridStart_row_le_cap (listedAction_same b _ _)

/-- Settles O28: the HOST's conditions decide the first three clauses, and the machine's screen is the listed one. -/
theorem putcIsTheListedTransition : Obligations.PutcIsTheListedTransition := by
  intro b s
  have hputc := isPutc_decodePutc b
  refine ⟨fun f hf => ?_, fun hf hbusy => ?_, fun hopen hd => ?_, fun hr => ?_⟩
  · rw [exec_putc hputc, hostCommand_stopped hf]
  · obtain ⟨k, hk⟩ : ∃ k, s.engine = .step k := by
      cases hk : s.engine with
      | idle => exact absurd hk hbusy
      | step k => exact ⟨k, rfl⟩
    rw [exec_putc hputc, hostCommand_held hf hk]
  · simpa only [putcByte_decodePutc] using exec_putc_raises hputc hopen hd
  · obtain ⟨hc, hread⟩ := listedPutc_same b s
    exact putc_leaves_screen hputc hr hc.symm fun j => (hread j).symm

/-- Settles O27: the listed action is the machine's, and what it leaves is scrolled at CAP alone. -/
theorem scrollMovesEveryRowUp : Obligations.ScrollMovesEveryRowUp := by
  intro b s hr hg
  obtain ⟨hc, hread⟩ := listedAction_same b (Config.cbDraw s.epoch) s.screen
  obtain ⟨t, ht, hbelow, hcap⟩ := putc_leaves (isPutc_decodePutc b) hr hc.symm fun j => (hread j).symm
  refine ⟨t, ht, hc ▸ putcAction_c_le_cap _ hg.2, fun h => ?_, fun h => ?_⟩
  · exact ⟨(hbelow h).cursor_eq, (hbelow h).cell_eq⟩
  · have hcells := (hcap h).cell_eq
    have hrow := Config.gridStart_row_le_cap
    refine ⟨(hcap h).cursor_eq, fun j h1 h2 => ?_, fun j h1 h2 => ?_, fun j hj => ?_⟩
    · rw [hcells, scrolled, if_pos (by omega), if_pos h2]
    · rw [hcells, scrolled, if_pos (by omega), if_neg (by omega)]
      rfl
    · rw [hcells, scrolled_outside hj, hread]
      exact read_putcAction_outside (x := s.screen) _ hg hj

end Sys2Proof.Machine
end

section
/-!
INIT and the ten ENGINE steps one by one (spec/41_init_engine.md R91 to R106): what each step leaves of the cursor, the registers and
the memories. Built on the reads of Laws/Init.lean and the ENGINE turn of Laws/Step.lean.
-/

namespace Sys2Proof.Machine

variable {c r row col : Nat}

/-! ### The sequence (R91, R92) -/

/-- Settles O33: INIT is one HOST command, whose effect is the engine's alone. -/
theorem initStartsTheEngine : Obligations.InitStartsTheEngine := by
  refine ⟨decode_of_word decodeWord_init, fun s => ⟨fun f hf => hostCommand_stopped hf, fun hf hbusy => ?_, fun hopen =>
    ⟨_, hostCommand_open hopen, rfl⟩⟩⟩
  cases hk : s.engine with
  | idle => exact absurd hk hbusy
  | step k => exact hostCommand_held hf hk

/-- Settles O34: the step moves the sequence on and leaves the HOST's queue and the fault. -/
theorem engineRunsTheStepsInOrder : Obligations.EngineRunsTheStepsInOrder := by
  intro s k h
  obtain ⟨hfault, _, _, hpending, henv, _⟩ := engineStep_frame s.envTaken k
  refine ⟨_, step_engine h, hpending, henv, hfault.trans h.1, ?_⟩
  rw [h.2.1, engineStep_engine, stepsLeft_engineAfter]

/-! ### The cursor and its registers (R95, R96) -/

@[simp] theorem State.regP_envTaken (s : State) (q : Reg) : s.envTaken.regP q = s.regP q := rfl

/-- Settles O35: the cursor is all that step 1 writes. -/
theorem initStep1SetsTheCursor : Obligations.InitStep1SetsTheCursor :=
  fun _ h => ⟨_, step_engine h, rfl⟩

/-- The column and the row of GRID_START: row starts are multiples of 128, and the row fits a register. -/
theorem gridStart_regs_toNat : (toRegWord (Config.gridStart % 128)).toNat = 0 ∧
    (toRegWord (Config.gridStart / 128)).toNat = Config.gridStart / 128 := by
  rw [Config.gridStart_mod]
  exact ⟨toRegWord_toNat (lt_regW_of_lt (by decide)), toRegWord_toNat (row_lt_regW gridStart_lt_cap.le)⟩

/-- Settles O36: step 2 writes three registers, the position with the cursor's column and row. -/
theorem initStep2SetsTheCursorRegisters : Obligations.InitStep2SetsTheCursorRegisters := by
  intro s h
  have hregs := initCursorRegs_regP s.envTaken
  refine ⟨_, step_engine h, rfl, hregs regCursv, hregs regXcur, hregs regYcur, fun hc => ?_, fun q hq => ?_⟩
  · obtain ⟨hx, hy⟩ := gridStart_regs_toNat
    rw [← hc] at hx hy ⊢
    exact ⟨(congrArg BitVec.toNat (hregs regXcur)).trans hx, (congrArg BitVec.toNat (hregs regYcur)).trans hy⟩
  · simp_all only [List.mem_cons, not_or, engineStep_regP, initEffect, if_false, State.regP_envTaken]

/-! ### The timing, the pixel region and the palette (R97 to R99) -/

/-- Settles O37: step 3 writes the five registers it names, and VSYN is none of them. -/
theorem initStep3SetsTheTiming : Obligations.InitStep3SetsTheTiming := by
  intro s h
  have hregs := initTiming_regP s.envTaken
  refine ⟨_, step_engine h, rfl, hregs regHstart, hregs regHsyn, hregs regHstop, hregs regVstart, hregs regVstop,
    hregs regVsyn, fun q hq => ?_⟩
  simp_all only [List.mem_cons, not_or, engineStep_regP, initEffect, if_false, State.regP_envTaken]

/-- Settles O38: step 4 writes the five registers it names. -/
theorem initStep4SetsThePixelRegion : Obligations.InitStep4SetsThePixelRegion := by
  intro s h
  have hregs := initPixels_regP s.envTaken
  refine ⟨_, step_engine h, rfl, hregs regPstart, hregs regPstop, hregs regXscale, hregs regYscale, hregs regFlimit,
    fun q hq => ?_⟩
  simp_all only [List.mem_cons, not_or, engineStep_regP, initEffect, if_false, State.regP_envTaken]

/-- Settles O39: the registers 14 to 29 are the palette's. -/
theorem initStep5LoadsThePalette : Obligations.InitStep5LoadsThePalette := by
  intro s h
  have hregs := initPalette_regP s.envTaken
  refine ⟨_, step_engine h, rfl, fun i => ?_, fun q hq => (hregs q).trans (if_neg fun ⟨hlo, hhi⟩ => ?_)⟩
  · have hi : (regPal i).val = 14 + i.val := rfl
    refine (hregs (regPal i)).trans ((if_pos (by omega)).trans ?_)
    rw [hi, Nat.add_sub_cancel_left]
  · exact hq ⟨q.val - 14, by omega⟩ (Fin.ext (Nat.add_sub_of_le hlo).symm)

/-! ### The font (R100, R101, R108) -/

theorem engineStep_s6_fontByte {a : Nat} (s : State) (ha : a < 2048) :
    (engineStep .s6 s).fontByte a = uploadedByte Config.glyphRom a :=
  (initFont_fontByte s a).trans (if_pos ha)

/-- Byte c*16 + r of the upload is row r of glyph c. -/
theorem uploadedByte_row {rom : Nat → Nat → Byte} (hr : r ≤ 15) : uploadedByte rom (c * 16 + r) =
    if c = 127 then 0xFF#8 else if r < 12 then packRow (rom c r) else 0x00#8 := by
  have hdiv : (c * 16 + r) / 16 = c := by omega
  have hmod : (c * 16 + r) % 16 = r := by omega
  rw [uploadedByte, Config.fontRows, hdiv, hmod]

/-- Settles O40: the three kinds of bytes are the upload's three cases. -/
theorem initStep6UploadsTheFont : Obligations.InitStep6UploadsTheFont := by
  intro s h
  refine ⟨_, step_engine h, rfl, fun c r hc hr => ?_, fun c r hc hlo hr => ?_, fun r hr => ?_⟩
  · rw [engineStep_s6_fontByte _ (by omega), uploadedByte_row (by omega), if_neg (by omega), if_pos (by omega), packRow]
  · rw [engineStep_s6_fontByte _ (by omega), uploadedByte_row hr, if_neg (by omega), if_neg (by omega)]
  · rw [engineStep_s6_fontByte _ (by omega), uploadedByte_row hr, if_pos rfl]

/-- Settles O46: the uploaded bytes are the ROM's, whatever state the step is performed in. -/
theorem fontUploadIsIdempotent : Obligations.FontUploadIsIdempotent := by
  intro s u hs hu
  refine ⟨_, _, step_engine hs, step_engine hu, fun a ha => ?_⟩
  simp only [engineStep_s6_fontByte _ ha, and_self]

/-! ### The framebuffer (R102, R105) -/

/-- Settles O41: step 7 fills the framebuffer with 0. -/
theorem initStep7ClearsTheFramebuffer : Obligations.InitStep7ClearsTheFramebuffer :=
  fun s h => ⟨_, step_engine h, rfl, fun i hi => (initClearFb_fbWord s.envTaken i).trans (if_pos hi)⟩

/-- Settles O43: the draws are those of the logo count before the step. -/
theorem initStep9DrawsTheLogo : Obligations.InitStep9DrawsTheLogo :=
  fun s h => ⟨_, step_engine h, rfl, fun i hi => (initLogo_fbWord s.envTaken i).trans (if_pos hi)⟩

/-! ### The status bar and the modes (R103, R104, R106) -/

theorem engineStep_s8_cell (s : State) (hrow : row ≤ 31) (hcol : col ≤ 127) :
    (engineStep .s8 s).cell (row * 128 + col) = statusCell row col := by
  have hdiv : (row * 128 + col) / 128 = row := by omega
  have hmod : (row * 128 + col) % 128 = col := by omega
  refine (initStatusBar_cell s _).trans ((if_pos (by omega)).trans ?_)
  rw [hdiv, hmod]

/-- The zones of a status-bar row (R104). -/
theorem statusCell_eq : statusCell row col = if col < 108 then Config.statusZ1 row
    else if col < 118 then Config.statusZ2 else cellOf (Config.statusZ3Attr row) 0x80#8 := rfl

theorem cellOf_toNat (attr ch : Byte) : (cellOf attr ch).toNat = attr.toNat * 256 + ch.toNat := by
  rw [cellOf, BitVec.toNat_append, ← Nat.shiftLeft_add_eq_or_of_lt ch.isLt, Nat.shiftLeft_eq]

/-- Settles O42: the zones are the three cases of a status-bar cell, and the bar ends at cell 4095. -/
theorem initStep8PaintsTheStatusBar : Obligations.InitStep8PaintsTheStatusBar := by
  intro s h
  refine ⟨_, step_engine h, rfl, initStatusBar_regP s.envTaken, fun row col hrow hcol => ?_,
    fun row col hrow hlo hcol => ?_, fun row col hrow hlo hcol => ?_,
    fun j hj => (initStatusBar_cell s.envTaken j).trans (if_neg (Nat.not_lt.2 hj))⟩
  · rw [engineStep_s8_cell _ hrow (by omega), statusCell_eq, if_pos (by omega)]
  · rw [engineStep_s8_cell _ hrow (by omega), statusCell_eq, if_neg (by omega), if_pos (by omega)]
  · rw [engineStep_s8_cell _ hrow hcol, statusCell_eq, if_neg (by omega), if_neg (by omega), cellOf_toNat]
    rfl

/-- Settles O44: MODE is the one register step 10 writes, and FRAME copies it. -/
theorem initStep10GoesActive : Obligations.InitStep10GoesActive :=
  fun s h => ⟨_, step_engine h, rfl, initActivate_regP s.envTaken, initActivate_regP s.envTaken regMode⟩

end Sys2Proof.Machine
end

section
/-!
The ten steps as one run (spec/41_init_engine.md R107, R109, R110): the state they leave, and which of it depends on the state before.
-/

namespace Sys2Proof.Machine

variable {s : State} {k : InitStep}

/-! ### The run -/

/-- The steps `ks` performed one after the other. -/
def engineSteps (ks : List InitStep) (s : State) : State := ks.foldl (fun s k => engineStep k s) s

/-- The ten steps in the order of R107. -/
def initSequence : List InitStep := [.s1, .s2, .s3, .s4, .s5, .s6, .s7, .s8, .s9, .s10]

theorem step_engine_of_env_nil (hf : s.fault = none) (hk : s.engine = .step k) (henv : s.env = []) :
    step s = .next (engineStep k s) :=
  (step_engine ⟨hf, hk, .inl henv⟩).trans (by rw [State.envTaken_nil henv])

/-- With no turn planned by ENV, ENGINE performs step k and the steps that follow it, each the one `engineAfter` names. -/
theorem runSteps_engineSteps {ks : List InitStep} (hks : (k :: ks).IsChain fun j l => engineAfter j = .step l)
    (hf : s.fault = none) (hk : s.engine = .step k) (henv : s.env = []) :
    runSteps (ks.length + 1) s = .next (engineSteps (k :: ks) s) := by
  have hstep := step_engine_of_env_nil hf hk henv
  induction ks generalizing k s with
  | nil => exact (runSteps_succ hstep).trans runSteps_zero
  | cons l ks ih =>
    obtain ⟨hl, hks⟩ := List.isChain_cons_cons.1 hks
    obtain ⟨hfault, _, _, _, hsched, _⟩ := engineStep_frame s k
    rw [← hfault] at hf
    rw [← hsched] at henv
    exact (runSteps_succ hstep).trans (ih hks hf hl henv (step_engine_of_env_nil hf hl henv))

theorem runSteps_init (hf : s.fault = none) (hk : s.engine = .step .s1) (henv : s.env = []) :
    runSteps 10 s = .next (engineSteps initSequence s) :=
  runSteps_engineSteps (ks := initSequence.tail) (by decide) hf hk henv

/-! ### What the run leaves alone -/

/-- `t` differs from `s` in nothing but the elements the steps of R107 write. -/
def InitFrame (s t : State) : Prop :=
  t = { s with cursor := t.cursor, initDone := t.initDone, engine := t.engine, regp := t.regp, cb := t.cb, font := t.font,
               fb := t.fb, draws := t.draws }

theorem InitFrame.trans {t u : State} (hst : InitFrame s t) (htu : InitFrame t u) : InitFrame s u := by
  unfold InitFrame at *
  rw [htu, hst]

theorem engineStep_initFrame (k : InitStep) (s : State) : InitFrame s (engineStep k s) := by cases k <;> rfl

theorem engineSteps_initFrame (ks : List InitStep) (s : State) : InitFrame s (engineSteps ks s) := by
  induction ks generalizing s with
  | nil => rfl
  | cons k ks ih => exact (engineStep_initFrame k s).trans (ih _)

/-! ### What the run leaves in each element -/

/-- The table of R23: what INIT leaves in each register. It leaves VSYN as it was (C1). -/
def initTable (q : Reg) : Option RegWord :=
  match q.val with
  | 0 => some Config.cursvInit
  | 1 => some (toRegWord (Config.gridStart % 128))
  | 2 => some (toRegWord (Config.gridStart / 128))
  | 3 => some Config.hstartInit
  | 4 => some Config.hsynInit
  | 5 => some Config.hstopInit
  | 6 => some Config.vstartInit
  | 7 => none
  | 8 => some Config.vstopInit
  | 9 => some Config.pstartInit
  | 10 => some Config.pstopInit
  | 11 => some Config.xscaleInit
  | 12 => some Config.yscaleInit
  | 13 => some Config.flimitInit
  | 30 => some (toRegWord 1)
  | r => some (Config.paletteInit (r - 14))

theorem eq_vsyn_of_initTable_eq_none : ∀ q, initTable q = none → q = regVsyn := by decide

@[simp] theorem initCursor_regP (s : State) (q : Reg) : (initCursor s).regP q = s.regP q := rfl
@[simp] theorem initFont_regP (s : State) (q : Reg) : (initFont s).regP q = s.regP q := rfl
@[simp] theorem initClearFb_regP (s : State) (q : Reg) : (initClearFb s).regP q = s.regP q := rfl
@[simp] theorem initLogo_regP (s : State) (q : Reg) : (initLogo s).regP q = s.regP q := rfl

/-- The register writes of the ten steps, the last first: MODE alone is written twice, and step 2 finds step 1's cursor. -/
theorem initSequence_regP (s : State) (q : Reg) :
    (engineSteps initSequence s).regP q = (initTable q).getD (s.regP q) := by
  have hcursor : (engineStep .s1 s).cursor = Config.gridStart := rfl
  simp only [engineSteps, initSequence, List.foldl_cons, List.foldl_nil, engineStep_regP, initEffect, initActivate_regP,
    initLogo_regP, initStatusBar_regP, initClearFb_regP, initFont_regP, initPalette_regP, initPixels_regP,
    initTiming_regP, initCursorRegs_regP, hcursor, initCursor_regP]
  fin_cases q <;> rfl

theorem initTable_regPal : ∀ i : Fin 16, initTable (regPal i) = some (Config.paletteInit i.val) := by
  intro i
  fin_cases i <;> rfl

theorem initSequence_fontByte {a : Nat} (s : State) (ha : a < 2048) :
    (engineSteps initSequence s).fontByte a = uploadedByte Config.glyphRom a :=
  (initFont_fontByte _ a).trans (if_pos ha)

theorem initSequence_cell (s : State) (j : Nat) :
    (engineSteps initSequence s).cell j = if j < 4096 then statusCell (j / 128) (j % 128) else s.cell j :=
  initStatusBar_cell _ j

theorem initSequence_fbWord {i : Nat} (s : State) (hi : i < Config.fbWords) :
    (engineSteps initSequence s).fbWord i = Config.logoDraw s.draws i :=
  (initLogo_fbWord _ i).trans (if_pos hi)

/-- Settles O45: the registers are R23's table, and each memory holds what the last step to write it left. -/
theorem wholeInitLeavesTheKnownState : Obligations.WholeInitLeavesTheKnownState := by
  intro s hf hk henv
  have hregs := initSequence_regP s
  have hx := (congrArg BitVec.toNat (hregs regXcur)).trans gridStart_regs_toNat.1
  have hy := (congrArg BitVec.toNat (hregs regYcur)).trans gridStart_regs_toNat.2
  have hmode := (congrArg BitVec.toNat (hregs regMode)).trans (toRegWord_toNat (lt_regW_of_lt (by decide)))
  have hpal (i : Fin 16) : (engineSteps initSequence s).regP (regPal i) = Config.paletteInit i.val := by
    rw [hregs, initTable_regPal, Option.getD_some]
  exact ⟨_, runSteps_init hf hk henv, engineSteps_initFrame initSequence s, hregs regCursv, hx, hy, hregs regHstart,
    hregs regHsyn, hregs regHstop, hregs regVstart, hregs regVsyn, hregs regVstop, hregs regPstart, hregs regPstop,
    hregs regXscale, hregs regYscale, hregs regFlimit, hpal, hmode, fun _ => initSequence_fontByte s,
    initSequence_cell s, fun _ => initSequence_fbWord s⟩

/-- Settles O47: of what the run leaves there, only VSYN is not in R23's table. -/
theorem secondInitRestoresWhatInitWrites : Obligations.SecondInitRestoresWhatInitWrites := by
  intro s u hsf hsk hse huf huk hue
  refine ⟨_, _, runSteps_init hsf hsk hse, runSteps_init huf huk hue, rfl, fun q hq => ?_, fun a ha => ?_,
    fun j hj => ?_⟩
  · rw [initSequence_regP, initSequence_regP]
    cases ht : initTable q with
    | none => exact absurd (eq_vsyn_of_initTable_eq_none q ht) hq
    | some v => rfl
  · rw [initSequence_fontByte s ha, initSequence_fontByte u ha]
  · rw [initSequence_cell, initSequence_cell, if_pos hj, if_pos hj]

end Sys2Proof.Machine
end

section
/-!
A HOST command as one transition, and the reads and writes of the four memory spaces (spec/42_bus_access.md R111 to R120, R122, R124):
each M-format command is its index check around one reply or one write. Built on Laws/Host.lean and Laws/Ops.lean.
-/

namespace Sys2Proof.Machine

variable {s u after : State} {i : Instr} {sp : Space} {idx : Nat}

/-! ### Stopped, held or performed -/

theorem hostCommand_busy (hf : s.fault = none) (hbusy : s.engine ≠ .idle) : hostCommand s after = .next s := by
  cases hk : s.engine with
  | idle => exact absurd hk hbusy
  | step k => exact hostCommand_held hf hk

theorem CommandLeaves.pending_eq (h : CommandLeaves s i u) : u.pending = s.pending := by cases h <;> rfl

theorem CommandLeaves.env_eq (h : CommandLeaves s i u) : u.env = s.env := by cases h <;> rfl

/-- Settles O9: every command is one `hostCommand`, and no command's effect touches the queue before it is retired. -/
theorem commandIsStoppedHeldOrPerformed : Obligations.CommandIsStoppedHeldOrPerformed := by
  intro i s
  rw [exec_eq_hostCommand]
  exact ⟨fun _ hf => hostCommand_stopped hf, hostCommand_busy, fun hopen =>
    ⟨_, hostCommand_open hopen, congrArg List.tail (commandEffect_leaves i s).pending_eq⟩⟩

/-- Settles O10: an ILLEGAL command is a `hostCommand` too, whose effect is the raise alone. -/
theorem illegalCommandIsHeldThenRaises : Obligations.IllegalCommandIsHeldThenRaises := by
  intro c why s hd
  refine ⟨fun hnext => ⟨(s.envTaken.raise (.illegalCommand c.cw)).retire, ?_, rfl⟩, fun hf hbusy => ?_⟩
  · rw [step_host hnext, performCommand_of_illegal hd]
    exact hostCommand_open hnext.1
  · rw [performCommand_of_illegal hd]
    exact hostCommand_busy hf hbusy

/-! ### The index check around an M-format command (R120) -/

/-- What an M-format command leaves when its space has the element: a reply, or one write. A command of another format has no such
effect. -/
def memoryDone (i : Instr) (s : State) : State :=
  match i with
  | .rdChar idx => s.reply (.char (s.cell idx))
  | .wrChar idx data => s.setCell idx data
  | .rdReg idx => s.reply (.reg (s.regP (regOfIdx idx)))
  | .wrReg idx data => s.setReg (regOfIdx idx) data
  | .rdFont idx => s.reply (.font (s.fontByte idx))
  | .wrFont idx data => s.setFontByte idx data
  | .rdFb idx => s.reply (.fb (s.fbWord idx))
  | .wrFb idx data => s.setFbWord idx data
  | .putcBs | .putcDel | .putcCr | .putcLf | .putcPrint _ | .init => s

theorem commandEffect_of_memory (hi : memoryOperand i = some (sp, idx)) :
    commandEffect i s = checkIndex sp idx s (memoryDone i s) := by
  cases i with
  | rdChar | wrChar | rdReg | wrReg | rdFont | wrFont | rdFb | wrFb => cases hi; rfl
  | putcBs | putcDel | putcCr | putcLf | putcPrint | init => cases hi

theorem memoryDone_fault (i : Instr) (s : State) : (memoryDone i s).fault = s.fault := by cases i <;> rfl

theorem exec_memory_of_lt (hi : memoryOperand i = some (sp, idx)) (hopen : s.Open) (hlt : idx < elementCount sp) :
    exec i s = .next (memoryDone i s).retire := by
  rw [exec_eq_hostCommand, hostCommand_open hopen, commandEffect_of_memory hi, checkIndex_of_lt hlt]

theorem exec_memory_of_le (hi : memoryOperand i = some (sp, idx)) (hopen : s.Open) (hle : elementCount sp ≤ idx) :
    Raises (exec i s) s (.badIndex sp idx) := by
  rw [exec_eq_hostCommand, hostCommand_open hopen, commandEffect_of_memory hi, checkIndex_of_le hle]
  exact ⟨_, rfl, rfl⟩

/-- Settles O12: below the count the reply or write records no fault, and at or above it the check raises. -/
theorem badIndexExactlyPastTheCount : Obligations.BadIndexExactlyPastTheCount := by
  refine ⟨⟨rfl, rfl, rfl, rfl⟩, fun i sp idx s hi hopen => ?_⟩
  rcases Nat.lt_or_ge idx (elementCount sp) with hlt | hge
  · have hfault : (memoryDone i s).retire.fault = none := (memoryDone_fault i s).trans hopen.1
    exact ⟨_, exec_memory_of_lt hi hopen hlt, iff_of_false (absurd hfault) (Nat.not_le.2 hlt),
      fun hle => absurd hle (Nat.not_le.2 hlt)⟩
  · obtain ⟨t, ht, hraise⟩ := exec_memory_of_le hi hopen hge
    exact ⟨t, ht, iff_of_true (by rw [hraise]; nofun) hge, fun _ => hraise⟩

/-! ### The character buffer (R111, R112) -/

/-- An index no entry lists reads as the memory's default. -/
theorem Store.read_of_unlisted {w : Nat} {dflt : Nat → BitVec w} {m : Store w} (h : ∀ e ∈ m, e.1 ≠ idx) :
    Store.read dflt m idx = dflt idx := by
  have hfind : m.find? (fun e => e.1 == idx) = none :=
    List.find?_eq_none.2 fun e he => by simpa using h e he
  rw [Store.read, hfind]
  rfl

/-- Settles O13: the reply is the cell. -/
theorem rdCharReturnsTheCell : Obligations.RdCharReturnsTheCell :=
  ⟨decode_of_word decodeWord_rdChar, fun _ _ hopen =>
    ⟨fun hlt => ⟨_, exec_memory_of_lt rfl hopen hlt, rfl⟩, fun hle => exec_memory_of_le rfl hopen hle,
      Store.read_of_unlisted⟩⟩

/-- Settles O14: the write is `setCell`. -/
theorem wrCharWritesOneCell : Obligations.WrCharWritesOneCell :=
  ⟨decode_of_word decodeWord_wrChar, fun s idx v hopen =>
    ⟨fun hlt => ⟨_, exec_memory_of_lt rfl hopen hlt, rfl, s.cell_setCell idx v⟩,
      fun hle => exec_memory_of_le rfl hopen hle⟩⟩

/-! ### The registers (R115, R116) -/

/-- Settles O15: the reply is the pending copy of the register the index names. -/
theorem rdRegReturnsThePendingCopy : Obligations.RdRegReturnsThePendingCopy := by
  refine ⟨decode_of_word decodeWord_rdReg, fun s hopen => ⟨fun r => ⟨_, exec_memory_of_lt rfl hopen r.isLt, ?_⟩,
    fun _ hle => exec_memory_of_le rfl hopen hle⟩⟩
  rw [memoryDone, regOfIdx_val]
  rfl

/-- Settles O16: the write is `setReg`, and FRAME copies the pending register. -/
theorem wrRegWritesThePendingCopy : Obligations.WrRegWritesThePendingCopy := by
  refine ⟨decode_of_word decodeWord_wrReg, fun s v hopen => ⟨fun r => ⟨_, exec_memory_of_lt rfl hopen r.isLt, ?_⟩,
    fun _ hle => exec_memory_of_le rfl hopen hle⟩⟩
  rw [memoryDone, regOfIdx_val]
  exact ⟨rfl, s.regP_setReg r v, fun _ => rfl, (s.regP_setReg r v r).trans (if_pos rfl)⟩

/-! ### The framebuffer (R122) -/

/-- Settles O20: the write is `setFbWord`. -/
theorem wrFbWritesOneWord : Obligations.WrFbWritesOneWord :=
  ⟨decode_of_word decodeWord_wrFb, fun s i v hopen =>
    ⟨fun hlt => ⟨_, exec_memory_of_lt rfl hopen hlt, rfl, s.fbWord_setFbWord i v⟩,
      fun hle => exec_memory_of_le rfl hopen hle⟩⟩

end Sys2Proof.Machine
end

section
/-!
An INIT under every schedule of FRAMEs (spec/41_init_engine.md R92, spec/42_bus_access.md R121): a FRAME writes no element an ENGINE step
reads, so the run ends where the ten steps alone end, the active registers apart; and the reads of FONT and FB after it (R117 to R119).
-/

namespace Sys2Proof.Machine

variable {s t : State} {k : InitStep} {a : Nat}

/-! ### Runs one after the other -/

theorem core_run_add {M : Host.Core} {n m : Nat} {x y : M.State} (h : M.run n x = .next y) :
    M.run (n + m) x = M.run m y := by
  induction n generalizing x with
  | zero =>
    cases h
    rw [Nat.zero_add]
  | succ n ih =>
    rw [Host.Core.run] at h
    split at h
    · rw [Nat.add_right_comm, core_run_succ ‹_›]
      exact ih h
    · cases h
    · cases h

theorem runSteps_add {n m : Nat} (h : runSteps n s = .next t) : runSteps (n + m) s = runSteps m t :=
  core_run_add (M := Sys2Proof.core) h

/-! ### FRAMEs between the ENGINE steps -/

/-- `t` is `s` but for what a FRAME and ENV's turns touch: the active registers and the schedule. -/
def FramesApart (s t : State) : Prop := t = { s with rega := t.rega, env := t.env }

theorem FramesApart.after_engineStep (h : FramesApart s t) (k : InitStep) :
    FramesApart (engineStep k s) (engineStep k t) := by
  unfold FramesApart at *
  rw [h]
  cases k <;> rfl

theorem FramesApart.after_engineSteps (h : FramesApart s t) (ks : List InitStep) :
    FramesApart (engineSteps ks s) (engineSteps ks t) := by
  induction ks generalizing s t with
  | nil => exact h
  | cons k ks ih => exact ih (h.after_engineStep k)

theorem FramesApart.trans {u : State} (hst : FramesApart s t) (htu : FramesApart t u) : FramesApart s u := by
  unfold FramesApart at *
  rw [htu, hst]

theorem FramesApart.fontByte_eq (h : FramesApart s t) (a : Nat) : t.fontByte a = s.fontByte a := by
  rw [h]; rfl

theorem FramesApart.fbWord_eq (h : FramesApart s t) (i : Nat) : t.fbWord i = s.fbWord i := by
  rw [h]; rfl

theorem framesApart_envTaken (s : State) : FramesApart s s.envTaken := rfl

theorem framesApart_frameEvent (s : State) : FramesApart s (frameEvent s.envTaken) := rfl

theorem State.NoReset.of_tail (hr : s.NoReset) (henv : t.env = s.env.tail) : t.NoReset := by
  rw [State.NoReset, henv]
  exact fun h => hr (List.mem_of_mem_tail h)

/-- Under its schedule, `s` runs in `n` steps and the FRAMEs that schedule plans to the state `u`, FRAMEs apart. -/
def RunsTo (n : Nat) (s u : State) : Prop :=
  ∃ m t, m + t.env.length ≤ n + s.env.length ∧ runSteps m s = .next t ∧ t.NoReset ∧ FramesApart u t

theorem runsTo_engineStep_of_passing (hk : s.EngineNext k) (hr : s.NoReset) : RunsTo 1 s (engineStep k s) := by
  obtain ⟨_, _, _, _, henv, _⟩ := engineStep_frame s.envTaken k
  refine ⟨1, _, ?_, runSteps_succ (step_engine hk), hr.of_tail henv, (framesApart_envTaken s).after_engineStep k⟩
  rw [henv, State.envTaken, List.length_tail]
  omega

/-- A FRAME planned before the next step comes first, and the run goes on from the state it leaves. -/
theorem RunsTo.of_frame {rest : List EnvTurn} (henv : s.env = .frame :: rest) (hf : s.fault = none)
    (h : RunsTo 1 (frameEvent s.envTaken) (engineStep k (frameEvent s.envTaken))) : RunsTo 1 s (engineStep k s) := by
  obtain ⟨m, t, hm, hrun, hr, hapart⟩ := h
  refine ⟨m + 1, t, ?_, (runSteps_succ (step_frame henv hf)).trans hrun, hr,
    ((framesApart_frameEvent s).after_engineStep k).trans hapart⟩
  have hlen : s.env.length = (frameEvent s.envTaken).env.length + 1 := by
    rw [frameEvent_env, State.envTaken, henv, List.tail_cons, List.length_cons]
  omega

/-- ENGINE's next step comes, by induction on ENV's schedule. -/
theorem runsTo_engineStep (hf : s.fault = none) (hk : s.engine = .step k) (hr : s.NoReset) :
    RunsTo 1 s (engineStep k s) := by
  generalize henv : s.env = env
  induction env generalizing s with
  | nil => exact runsTo_engineStep_of_passing ⟨hf, hk, .inl henv⟩ hr
  | cons turn rest ih =>
    cases turn with
    | pass => exact runsTo_engineStep_of_passing ⟨hf, hk, .inr (by rw [henv]; rfl)⟩ hr
    | reset => exact absurd (by rw [henv]; exact List.mem_cons_self) hr
    | frame =>
      have hrest : (frameEvent s.envTaken).env = rest := congrArg List.tail henv
      exact .of_frame henv hf (ih hf hk (hr.of_tail rfl) hrest)

/-- ENGINE performs step k and the steps that follow it, each the one `engineAfter` names, whatever FRAMEs fall between them. -/
theorem runsTo_engineSteps {ks : List InitStep} (hks : (k :: ks).IsChain fun j l => engineAfter j = .step l)
    (hf : s.fault = none) (hk : s.engine = .step k) (hr : s.NoReset) :
    RunsTo (ks.length + 1) s (engineSteps (k :: ks) s) := by
  induction ks generalizing k s with
  | nil => exact runsTo_engineStep hf hk hr
  | cons l ks ih =>
    obtain ⟨hl, hks⟩ := List.isChain_cons_cons.1 hks
    obtain ⟨m, t, hm, hrun, htr, hapart⟩ := runsTo_engineStep hf hk hr
    have htf : t.fault = none := by
      rw [hapart]
      exact (engineStep_frame s k).1.trans hf
    have htk : t.engine = .step l := by
      rw [hapart]
      exact hl
    obtain ⟨n, u, hn, hrun', hur, hapart'⟩ := ih hks htf htk htr
    refine ⟨m + n, u, ?_, (runSteps_add hrun).trans hrun', hur, (hapart.after_engineSteps (l :: ks)).trans hapart'⟩
    rw [List.length_cons]
    omega

theorem FramesApart.ready_and_pending (h : FramesApart s t) (hf : s.fault = none) (he : s.engine = .idle)
    (hd : s.initDone = true) : t.Ready ∧ t.pending = s.pending := by
  rw [h]
  exact ⟨⟨⟨hf, he⟩, hd⟩, rfl⟩

theorem InitFrame.fault_eq (h : InitFrame s t) : t.fault = s.fault := by rw [h]

theorem InitFrame.pending_eq (h : InitFrame s t) : t.pending = s.pending := by rw [h]

/-- A whole INIT ends under every schedule of FRAMEs, where the ten steps alone end. -/
theorem initEnds_framesApart (hf : s.fault = none) (hk : s.engine = .step .s1) (hr : s.NoReset) :
    ∃ t, InitEnds s t ∧ FramesApart (engineSteps initSequence s) t := by
  have hruns : RunsTo 10 s (engineSteps initSequence s) :=
    runsTo_engineSteps (ks := initSequence.tail) (by decide) hf hk hr
  obtain ⟨n, t, hn, hrun, _, hapart⟩ := hruns
  have hframe := engineSteps_initFrame initSequence s
  obtain ⟨hready, hpending⟩ := hapart.ready_and_pending (hframe.fault_eq.trans hf) rfl rfl
  refine ⟨t, ⟨n, ?_, hrun, hready, hpending.trans hframe.pending_eq⟩, hapart⟩
  rw [hk, stepsLeft]
  omega

/-! ### FONT and FB after an INIT -/

theorem FramesApart.fontByte_uploaded (h : FramesApart (engineSteps initSequence s) t) (ha : a < 2048) :
    t.fontByte a = uploadedByte Config.glyphRom a :=
  (h.fontByte_eq a).trans (initSequence_fontByte s ha)

theorem uploadedByte_2047 (rom : Nat → Nat → Byte) : uploadedByte rom 2047 = 0xFF#8 :=
  (uploadedByte_row (c := 127) (r := 15) le_rfl).trans (if_pos rfl)

/-- Row 12 of glyph 0 lies below the ROM's twelve rows. -/
theorem uploadedByte_12 (rom : Nat → Nat → Byte) : uploadedByte rom 12 = 0x00#8 :=
  uploadedByte_row (c := 0) (r := 12) (by decide)

/-- Settles O17: the reply is the font byte, and after an INIT that is the uploaded one. -/
theorem rdFontReturnsTheByte : Obligations.RdFontReturnsTheByte := by
  refine ⟨decode_of_word decodeWord_rdFont, fun s a hopen => ⟨fun hlt => ⟨_, exec_memory_of_lt rfl hopen hlt, rfl⟩,
    fun hle => exec_memory_of_le rfl hopen hle⟩, fun s hf hk hr => ?_⟩
  obtain ⟨t, hends, hapart⟩ := initEnds_framesApart hf hk hr
  have ⟨_, _, _, hready, _⟩ := hends
  have hread (a : Nat) (ha : a < 2048) :
      ∃ u, exec (.rdFont a) t = .next u ∧ u.returned = some (.font (uploadedByte Config.glyphRom a)) := by
    refine ⟨_, exec_memory_of_lt rfl hready.1 ha, ?_⟩
    rw [← hapart.fontByte_uploaded ha]
    rfl
  refine ⟨t, hends, hread, ?_, ?_⟩
  · rw [← uploadedByte_2047 Config.glyphRom]
    exact hread 2047 (by decide)
  · rw [← uploadedByte_12 Config.glyphRom]
    exact hread 12 (by decide)

/-- An INIT issued in an open state restores the font (R118). -/
theorem init_restores_font (hopen : s.Open) (hr : s.NoReset) :
    ∃ u x, exec .init s = .next u ∧ InitEnds u x ∧ ∀ j, j < 2048 → x.fontByte j = uploadedByte Config.glyphRom j := by
  have hinit : exec .init s = .next { s with engine := .step .s1, pending := s.pending.tail } := hostCommand_open hopen
  obtain ⟨x, hends, hapart⟩ :=
    initEnds_framesApart (s := { s with engine := .step .s1, pending := s.pending.tail }) hopen.1 rfl hr
  exact ⟨_, x, hinit, hends, fun _ hj => hapart.fontByte_uploaded hj⟩

/-- Settles O18: the write is `setFontByte`, and the bytes a later INIT leaves are the ROM's. -/
theorem wrFontWritesOneByte : Obligations.WrFontWritesOneByte :=
  ⟨decode_of_word decodeWord_wrFont, fun s a v hopen =>
    ⟨fun hlt => ⟨_, exec_memory_of_lt rfl hopen hlt, rfl, s.fontByte_setFontByte a v,
      init_restores_font (s := (s.setFontByte a v).retire) hopen⟩, fun hle => exec_memory_of_le rfl hopen hle⟩⟩

/-- Settles O19: the reply is the framebuffer word, and after an INIT that is the logo draw. -/
theorem rdFbReturnsTheWord : Obligations.RdFbReturnsTheWord := by
  refine ⟨decode_of_word decodeWord_rdFb, fun s i hopen => ⟨fun hlt => ⟨_, exec_memory_of_lt rfl hopen hlt, rfl⟩,
    fun hle => exec_memory_of_le rfl hopen hle⟩, fun s hf hk hr => ?_⟩
  obtain ⟨t, hends, hapart⟩ := initEnds_framesApart hf hk hr
  have ⟨_, _, _, hready, _⟩ := hends
  refine ⟨t, hends, fun i hi => ⟨_, exec_memory_of_lt rfl hready.1 hi, ?_⟩⟩
  rw [← (hapart.fbWord_eq i).trans (initSequence_fbWord s hi)]
  rfl

end Sys2Proof.Machine
end

section
/-!
FRAME (spec/42_bus_access.md R121), and the finite form of its fairness (R123, log entry 18): every step that is no FRAME uses up some of
the work that is left.
-/

namespace Sys2Proof.Machine

variable {s t u : State} {i : Instr}

/-- Settles O49: with ENV's turn a FRAME the step is `frameEvent`, and a recorded fault stops it. -/
theorem frameLatchesEveryRegister : Obligations.FrameLatchesEveryRegister := by
  intro s rest henv
  refine ⟨fun hf => ⟨_, step_frame henv hf, rfl, s.envTaken.regA_frameEvent⟩, fun f hf => step_stopped hf ?_⟩
  rw [State.resetNext, henv]

/-! ### The work that is left -/

theorem stepsLeft_le_ten : ∀ e : Engine, stepsLeft e ≤ 10
  | .idle => Nat.zero_le _
  | .step k => by cases k <;> decide

theorem State.HostNext.pending_length {c : Command} (h : s.HostNext c) :
    s.pending.length = s.pending.tail.length + 1 := by
  obtain ⟨_, hq, _⟩ := h
  obtain ⟨rest, hrest⟩ := List.head?_eq_some_iff.1 hq
  rw [hrest, List.tail_cons, List.length_cons]

/-- A performed command takes one off the queue, and starts at most the ten steps of an INIT. -/
theorem workLeft_of_performed {c : Command} (h : s.HostNext c) (hq : u.pending = s.pending) (henv : u.env = s.env.tail) :
    u.retire.workLeft < s.workLeft := by
  have hten : stepsLeft u.retire.engine ≤ 10 := stepsLeft_le_ten _
  have hlen := h.pending_length
  have hturns : u.retire.env.length ≤ s.env.length :=
    (congrArg List.length henv).trans_le (List.tail_sublist _).length_le
  have hrest : u.retire.pending = s.pending.tail := congrArg List.tail hq
  unfold State.workLeft
  rw [hrest]
  omega

/-- Every event but a FRAME uses up work: a reset ENV's turn, an ENGINE step itself, a command its place in the queue. -/
theorem StepEvent.workLeft_lt (h : StepEvent s t) (hframe : s.frameNext = false) : t.workLeft < s.workLeft := by
  cases h with
  | reset hr =>
    obtain ⟨rest, henv⟩ := State.resetNext_iff.1 hr
    simp only [State.workLeft, platformReset_env, platformReset_pending, platformReset_engine, State.envTaken, henv,
      List.tail_cons, List.length_cons, stepsLeft]
    omega
  | frame hf => exact absurd (hf.symm.trans hframe) (by decide)
  | @engine k hk =>
    obtain ⟨_, he, _⟩ := hk
    obtain ⟨_, _, _, hq, henv, _⟩ := engineStep_frame s.envTaken k
    have hfewer := stepsLeft_engineAfter k
    have hturns : s.envTaken.env.length ≤ s.env.length := (List.tail_sublist _).length_le
    have hqueue : s.envTaken.pending = s.pending := rfl
    simp only [State.workLeft, hq, henv, he, engineStep_engine, hqueue]
    omega
  | command hc _ hu => exact workLeft_of_performed hc hu.pending_eq hu.env_eq
  | illegal hc => exact workLeft_of_performed hc rfl rfl

/-- Settles O58: by induction on the work that is left, which every step before the next FRAME makes smaller. -/
theorem frameIsNeverPutOffForever : Obligations.FrameIsNeverPutOffForever := by
  intro s
  generalize hw : s.workLeft = w
  induction w using Nat.strong_induction_on generalizing s with
  | _ w ih =>
    by_cases hstop : s.frameNext = true ∨ ∀ u, step s ≠ .next u
    · exact ⟨0, s, Nat.zero_le _, runSteps_zero, hstop⟩
    · obtain ⟨hframe, hnext⟩ := not_or.1 hstop
      obtain ⟨u, hu⟩ := not_forall_not.1 hnext
      have hless := (step_event hu).workLeft_lt (Bool.eq_false_iff.2 hframe)
      obtain ⟨k, t, hk, hrun, hend⟩ := ih _ (hw ▸ hless) u rfl
      exact ⟨k + 1, t, by omega, (runSteps_succ hu).trans hrun, hend⟩

end Sys2Proof.Machine
end

section
/-!
The end of a hold and the end of a run (spec/70_reset_and_hazards.md R142, R146, R156): ENGINE gets through the steps it has left, and a
machine with nothing left to do takes FRAMEs alone.
-/

namespace Sys2Proof.Machine

variable {s : State} {k : InitStep}

/-! ### The steps ENGINE has left (R92) -/

/-- The steps that follow step k in the order of R107. -/
def stepsAfter (k : InitStep) : List InitStep := initSequence.drop (11 - stepsLeft (.step k))

theorem stepsAfter_isChain (k : InitStep) : (k :: stepsAfter k).IsChain fun j l => engineAfter j = .step l := by
  cases k <;> decide

theorem stepsAfter_length (k : InitStep) : (stepsAfter k).length + 1 = stepsLeft (.step k) := by cases k <;> rfl

/-- Wherever the sequence is taken up, step 10 ends it (R93). -/
theorem engineSteps_stepsAfter (k : InitStep) (s : State) :
    (engineSteps (k :: stepsAfter k) s).engine = .idle ∧ (engineSteps (k :: stepsAfter k) s).initDone = true := by
  cases k <;> exact ⟨rfl, rfl⟩

/-- A running INIT ends under every schedule of FRAMEs, from any of its steps. -/
theorem initEnds_of_step (hf : s.fault = none) (hk : s.engine = .step k) (hr : s.NoReset) : ∃ t, InitEnds s t := by
  obtain ⟨n, t, hn, hrun, _, hapart⟩ := runsTo_engineSteps (stepsAfter_isChain k) hf hk hr
  obtain ⟨hidle, hdone⟩ := engineSteps_stepsAfter k s
  have hframe := engineSteps_initFrame (k :: stepsAfter k) s
  obtain ⟨hready, hpending⟩ := hapart.ready_and_pending (hframe.fault_eq.trans hf) hidle hdone
  refine ⟨t, n, ?_, hrun, hready, hpending.trans hframe.pending_eq⟩
  rw [stepsAfter_length] at hn
  rw [hk]
  omega

/-- Settles O48: a busy ENGINE is at one of its steps, and the INIT ends from there. -/
theorem holdEndsWithinTenEngineSteps : Obligations.HoldEndsWithinTenEngineSteps := by
  intro s hf hbusy hr
  cases hk : s.engine with
  | idle => exact absurd hk hbusy
  | step k =>
    obtain ⟨t, n, hn, hrun, ⟨⟨hfault, hidle⟩, hdone⟩, hpending⟩ := initEnds_of_step hf hk hr
    exact ⟨n, t, hk ▸ hn, hrun, hidle, hdone, hfault, hpending⟩

/-! ### The end of a run (R142, R156) -/

theorem agentTurn_of_finished (h : s.Finished) : agentTurn s = .next (frameEvent s) := by
  obtain ⟨hq, he, hf⟩ := h
  simp only [agentTurn, hq, he, hf]

/-- Settles O57: with no turn planned the step is the idle machine's FRAME, which keeps the queue, ENGINE and the fault. -/
theorem finishedMachineOnlyLatches : Obligations.FinishedMachineOnlyLatches := by
  intro s hfin henv
  have hstep : step s = .next (frameEvent s) := by
    rw [step_of_passing (.inl henv), State.envTaken_nil henv, agentTurn_of_finished hfin]
  exact ⟨frameEvent s, hstep, rfl, hfin, s.regA_frameEvent⟩

end Sys2Proof.Machine
end
